-- ==== Sys2Proof/Word.lean ====
section
/-! DEFINITION. The word types of the block: every register is an unsigned binary number of a stated
width (00_scope.md R9; widths 10_state.md R21 to R34, 30_encoding.md R82). -/

namespace Sys2Proof

/-- A byte of the wire, of the packet buffer or of the output sink (R9). -/
abbrev Byte := BitVec 8

/-- A CRC value (10_state.md R26, R27). -/
abbrev Crc := BitVec 16

/-- A timestamp in milliseconds, unsigned, of `W_TIME` = 32 bits (00_scope.md R7, 10_state.md R29): the width that every
configuration has (`Config.wTime`). -/
abbrev Time := BitVec 32

/-- `packet_size` and `fill_position` (10_state.md R24, R25). -/
abbrev Len := BitVec 11

/-- The command word `cmd[34:0]` (30_encoding.md R82). -/
abbrev CmdWord := BitVec 35

/-- The 4-bit code of a state of the FSM (30_encoding.md R81). -/
abbrev StateCode := BitVec 4

end Sys2Proof
end

