-- ==== Sys2Proof/Config.lean ====
section
/-! DEFINITION. The fifteen parameters of the block (00_scope.md R7): what is fixed before reset and no operation
changes (10_state.md R36). The spec fixes eleven of them for this hardware and leaves four to the deployment. -/

namespace Sys2Proof

/-- The configuration of a Session, one field for each row of the table of R7. Each value the spec fixes is a field
whose value is given, and `fixed` says that every configuration has it; the others are OPEN. The intervals are plain
counts of milliseconds. `maxErrors` is a `Fin 254` because R7 gives `MAX_ERRORS` the legal range 0 to 253. -/
structure Config where
  /-- `BUF_CAP`, in bytes (R7, R50). -/
  bufCap : Nat := 1024
  /-- `SIZE_STD` (R7, R72). -/
  sizeStd : Len := 128#11
  /-- `SIZE_EXT` (R7, R72). -/
  sizeExt : Len := 1024#11
  /-- `HDR_STD` (R7, R70). -/
  hdrStd : Byte := 0x01#8
  /-- `HDR_EXT` (R7, R70). -/
  hdrExt : Byte := 0x02#8
  /-- `EOT` (R7, R70). -/
  eot : Byte := 0x04#8
  /-- `ACK` (R7, R71). -/
  ack : Byte := 0x06#8
  /-- `HANDSHAKE` (R7, R71). -/
  handshake : Byte := 0x43#8
  /-- `CRC_POLY` (R7, R100). -/
  crcPoly : Crc := 0x1021#16
  /-- `CRC_SEED` (R7, R101). -/
  crcSeed : Crc := 0x0000#16
  /-- `W_TIME`, in bits (R7): the width of `Time`. -/
  wTime : Nat := 32
  /-- `NACK_BYTE` (R7, R71), OPEN. -/
  nackByte : Byte
  /-- `HANDSHAKE_INTERVAL_MS` (R7, R145), OPEN. -/
  handshakeIntervalMs : Nat
  /-- `RETRY_INTERVAL_MS` (R7, R145), OPEN. -/
  retryIntervalMs : Nat
  /-- `MAX_ERRORS` (R7, R147), OPEN. -/
  maxErrors : Fin 254
  /-- The values that the table of R7 fixes. -/
  fixed : bufCap = 1024 ∧ sizeStd = 128#11 ∧ sizeExt = 1024#11 ∧ hdrStd = 0x01#8 ∧ hdrExt = 0x02#8 ∧ eot = 0x04#8 ∧
    ack = 0x06#8 ∧ handshake = 0x43#8 ∧ crcPoly = 0x1021#16 ∧ crcSeed = 0x0000#16 ∧ wTime = 32 := by decide
deriving DecidableEq, Repr

/-- The values of 00_scope.md R7. The OPEN defaults are unaudited reference values (R8): no statement rests on them. -/
def Config.reference : Config :=
  { nackByte := 0x17#8, handshakeIntervalMs := 500, retryIntervalMs := 1000, maxErrors := 10 }

end Sys2Proof
end

