-- ==== Sys2Proof/Syntax.lean ====
section
/-! DEFINITION. The instructions, one constructor per row of spec/opcode_table.json, and the words they are
encoded in. The table has four formats (30_encoding.md): the 35-bit command words the caller issues (R82), the input
byte classes of FEED (R77), the bytes the block emits (R71) and the codes QSTATE returns (R81). -/

namespace Sys2Proof

/-- The nine states of the FSM (10_state.md R21), in the order of their codes (30_encoding.md R81). -/
inductive FsmState where
  | awaitHandshakeOrHeader
  | expectBlockNum
  | expectBlockNumComplement
  | receivingData
  | expectCrcHigh
  | expectCrcLow
  | packetReady
  | success
  | failure
deriving DecidableEq, Repr

/-- The six kinds of event of the error taxonomy (60_exceptions.md R181 to R186). -/
inductive Event where
  | framingDesync
  | crcMismatch
  | duplicateBlock
  | stall
  | maxErrorsExceeded
  | endOfTransmission
deriving DecidableEq, Repr

/-- One constructor per row of spec/opcode_table.json, in the table's order. -/
inductive Instr where
  -- CMD35: the command codes (R82, R84)
  /-- FEED, `b = arg[7:0]` (R110). -/
  | feed (b : Byte)
  /-- TICK, `now = arg[31:0]` (R140). -/
  | tick (now : Time)
  /-- EXTRACT (R162). -/
  | extract
  /-- QSTATE (R163). -/
  | qstate
  /-- QFIN (R164). -/
  | qfin
  /-- RESERVED_5 (R84). -/
  | reserved5
  /-- RESERVED_6 (R84). -/
  | reserved6
  /-- RESERVED_7 (R84). -/
  | reserved7
  -- WIRE_IN8: the classes of an input byte (R77)
  /-- AW_HDR_STD: byte 0x01 in AWAIT_HANDSHAKE_OR_HEADER (R111). -/
  | awHdrStd
  /-- AW_HDR_EXT: byte 0x02 in AWAIT_HANDSHAKE_OR_HEADER (R111). -/
  | awHdrExt
  /-- AW_EOT: byte 0x04 in AWAIT_HANDSHAKE_OR_HEADER (R112). -/
  | awEot
  /-- AW_NOISE: any other byte in AWAIT_HANDSHAKE_OR_HEADER (R113). -/
  | awNoise (b : Byte)
  /-- BN_NEXT: the candidate in EXPECT_BLOCK_NUM (R114). -/
  | bnNext (b : Byte)
  /-- BN_DUP: `expected_block` in EXPECT_BLOCK_NUM (R115). -/
  | bnDup (b : Byte)
  /-- BN_HDR: a header marker `000000hh` in EXPECT_BLOCK_NUM (R116). -/
  | bnHdr (h : BitVec 2)
  /-- BN_OTHER: any other byte in EXPECT_BLOCK_NUM (R117). -/
  | bnOther (b : Byte)
  /-- BC_MATCH: the required complement in EXPECT_BLOCK_NUM_COMPLEMENT (R118). -/
  | bcMatch (b : Byte)
  /-- BC_HDR: a header marker `000000hh` in EXPECT_BLOCK_NUM_COMPLEMENT (R119). -/
  | bcHdr (h : BitVec 2)
  /-- BC_OTHER: any other byte in EXPECT_BLOCK_NUM_COMPLEMENT (R120). -/
  | bcOther (b : Byte)
  /-- RD_DATA: a byte in RECEIVING_DATA (R121). -/
  | rdData (b : Byte)
  /-- CH_CRCHI: a byte in EXPECT_CRC_HIGH (R122). -/
  | chCrchi (b : Byte)
  /-- CL_CRCLO_BAD: a low CRC byte that does not match (R123). -/
  | clCrcloBad (b : Byte)
  /-- CL_CRCLO_OK: a low CRC byte that matches (R124). -/
  | clCrcloOk (b : Byte)
  /-- PR_IGNORED: a byte in PACKET_READY (R125). -/
  | prIgnored (b : Byte)
  /-- TERM_IGNORED: a byte in SUCCESS or FAILURE (R126). -/
  | termIgnored (b : Byte)
  -- WIRE_OUT8: the bytes the block emits (R71)
  /-- ACK, 0x06 (R71). -/
  | ack
  /-- NACK_BYTE, the configured byte (R71). -/
  | nackByte
  /-- HANDSHAKE, 0x43 (R71). -/
  | handshake
  -- STATE4: the codes QSTATE returns (R81)
  /-- STATE_AWAIT_HANDSHAKE_OR_HEADER, code 0 (R81). -/
  | stateAwaitHandshakeOrHeader
  /-- STATE_EXPECT_BLOCK_NUM, code 1 (R81). -/
  | stateExpectBlockNum
  /-- STATE_EXPECT_BLOCK_NUM_COMPLEMENT, code 2 (R81). -/
  | stateExpectBlockNumComplement
  /-- STATE_RECEIVING_DATA, code 3 (R81). -/
  | stateReceivingData
  /-- STATE_EXPECT_CRC_HIGH, code 4 (R81). -/
  | stateExpectCrcHigh
  /-- STATE_EXPECT_CRC_LOW, code 5 (R81). -/
  | stateExpectCrcLow
  /-- STATE_PACKET_READY, code 6 (R81). -/
  | statePacketReady
  /-- STATE_SUCCESS, code 7 (R81). -/
  | stateSuccess
  /-- STATE_FAILURE, code 8 (R81). -/
  | stateFailure
deriving DecidableEq, Repr

/-- A word of one of the table's four formats. -/
inductive Encoded where
  /-- CMD35: a command word (R82). -/
  | cmd35 (w : CmdWord)
  /-- WIRE_IN8: a byte on the block's input (R70). -/
  | wireIn8 (b : Byte)
  /-- WIRE_OUT8: a byte on the block's output (R71). -/
  | wireOut8 (b : Byte)
  /-- STATE4: a state code (R81). -/
  | state4 (c : StateCode)
deriving DecidableEq, Repr

end Sys2Proof
end

