-- ==== Sys2Proof/WellFormed.lean ====
section
/-! DEFINITION. Well-formed instructions: the operand values that spec/opcode_table.json admits in a row, where the
row's condition restricts the byte itself (the conditions on the Session stand in Decode.lean, `Instr.holdsIn`). -/

namespace Sys2Proof

/-- The operand checks of the table's rows: noise is no header marker and no end-of-transmission (R113), the two
bits `hh` of a header row are 01 or 10 (R72, R116, R119), and a fallback byte is no header marker (R117, R120). -/
def Instr.wf : Instr → Bool
  | .feed _ | .tick _ | .extract | .qstate | .qfin => true
  | .reserved5 | .reserved6 | .reserved7 => true
  | .awHdrStd | .awHdrExt | .awEot => true
  | .awNoise b => b != 0x01#8 && b != 0x02#8 && b != 0x04#8
  | .bnNext _ | .bnDup _ => true
  | .bnHdr h => h == 1#2 || h == 2#2
  | .bnOther b => b != 0x01#8 && b != 0x02#8
  | .bcMatch _ => true
  | .bcHdr h => h == 1#2 || h == 2#2
  | .bcOther b => b != 0x01#8 && b != 0x02#8
  | .rdData _ | .chCrchi _ | .clCrcloBad _ | .clCrcloOk _ => true
  | .prIgnored _ | .termIgnored _ => true
  | .ack | .nackByte | .handshake => true
  | .stateAwaitHandshakeOrHeader | .stateExpectBlockNum | .stateExpectBlockNumComplement => true
  | .stateReceivingData | .stateExpectCrcHigh | .stateExpectCrcLow => true
  | .statePacketReady | .stateSuccess | .stateFailure => true

end Sys2Proof
end

