-- ==== Sys2Proof/Decode.lean ====
section
/-! DEFINITION. The decoders and the encoder of the four formats (30_encoding.md R70 to R72, R77, R81, R82, R84). A
command word decodes by itself; the class of an input byte depends on the Session (R77), so decoding a byte takes
the part of the Session the table's conditions name. -/

namespace Sys2Proof

/-! ## Constants of the encodings: fields of the configuration that 00_scope.md R7 fixes, so that they are the same in
every configuration (`Config.fixed`) -/

/-- `HDR_STD` (R70). -/
def hdrStd : Byte := Config.reference.hdrStd
/-- `HDR_EXT` (R70). -/
def hdrExt : Byte := Config.reference.hdrExt
/-- `EOT` (R70). -/
def eotByte : Byte := Config.reference.eot
/-- `ACK` (R71). -/
def ackByte : Byte := Config.reference.ack
/-- `HANDSHAKE`, ASCII 'C' (R71). -/
def handshakeByte : Byte := Config.reference.handshake
/-- `SIZE_STD` (R7). -/
def sizeStd : Len := Config.reference.sizeStd
/-- `SIZE_EXT` (R7). -/
def sizeExt : Len := Config.reference.sizeExt

/-- `is_header(b)` (30_encoding.md R72). -/
def isHeader (b : Byte) : Bool := b == hdrStd || b == hdrExt

/-- `size_of(b)` (30_encoding.md R72); every caller has tested `isHeader b`. -/
def sizeOfHeader (b : Byte) : Len := if b = hdrStd then sizeStd else sizeExt

/-- The byte `000000hh` of the rows BN_HDR and BC_HDR. -/
def headerByte (h : BitVec 2) : Byte := h.setWidth 8

/-! ## Block numbers (30_encoding.md R74, R75) -/

/-- The candidate, the wire number of the next block: `(expected_block + 1) mod 256` (R75, 41_feed_byte.md R114). -/
def candidateOf (expectedBlock : Byte) : Byte := expectedBlock + 1#8

/-- The block number that was accepted, recomputed from `is_duplicate_block` (R74, 41_feed_byte.md R118). -/
def acceptedOf (expectedBlock : Byte) (isDuplicate : Bool) : Byte :=
  if isDuplicate then expectedBlock else candidateOf expectedBlock

/-- The complement required of an accepted block number `a`: `0xFF - a` (R74). -/
def complementOf (a : Byte) : Byte := 0xFF#8 - a

/-! ## State codes (30_encoding.md R81) -/

/-- The 4-bit code of a state (R81). -/
def FsmState.code : FsmState → StateCode
  | .awaitHandshakeOrHeader => 0#4
  | .expectBlockNum => 1#4
  | .expectBlockNumComplement => 2#4
  | .receivingData => 3#4
  | .expectCrcHigh => 4#4
  | .expectCrcLow => 5#4
  | .packetReady => 6#4
  | .success => 7#4
  | .failure => 8#4

/-! ## The conditions of the table's rows -/

/-- What the conditions of the table's rows read: registers of the Session, the CRC of the buffered payload (none
where a byte of it cannot be read) and the configured NACK byte. -/
structure RowCtx where
  fsm : FsmState
  expectedBlock : Byte
  isDuplicate : Bool
  receivedCrc : Crc
  payloadCrc : Option Crc
  nackByte : Byte
deriving DecidableEq, Repr

/-- The context of the reset state (10_state.md R44) with the reference NACK byte. -/
def RowCtx.reset : RowCtx :=
  { fsm := .awaitHandshakeOrHeader, expectedBlock := 0#8, isDuplicate := false, receivedCrc := 0#16,
    payloadCrc := none, nackByte := Config.reference.nackByte }

/-- The wire number of the next block in this context. -/
def RowCtx.candidate (c : RowCtx) : Byte := candidateOf c.expectedBlock

/-- The complement the block requires in this context. -/
def RowCtx.complement (c : RowCtx) : Byte := complementOf (acceptedOf c.expectedBlock c.isDuplicate)

/-- Whether the low CRC byte `b` completes a matching CRC in this context (41_feed_byte.md R123, R124). -/
def RowCtx.crcMatches (c : RowCtx) (b : Byte) : Bool :=
  c.payloadCrc == some (c.receivedCrc ||| b.setWidth 16)

/-- The columns "state" and "condition" of spec/opcode_table.json, row by row: what the Session must be for the row to
apply (30_encoding.md R77, R78; 41_feed_byte.md R111 to R126). The restrictions on the byte alone are `Instr.wf`.
A command code applies in every state; an emitted byte has no condition; a state code is the code of one state. -/
def Instr.holdsIn (c : RowCtx) : Instr → Bool
  | .feed _ | .tick _ | .extract | .qstate | .qfin => true
  | .reserved5 | .reserved6 | .reserved7 => true
  | .awHdrStd | .awHdrExt | .awEot => c.fsm == .awaitHandshakeOrHeader
  | .awNoise _ => c.fsm == .awaitHandshakeOrHeader
  | .bnNext b => c.fsm == .expectBlockNum && b == c.candidate
  | .bnDup b => c.fsm == .expectBlockNum && b != c.candidate && b == c.expectedBlock
  | .bnHdr h => c.fsm == .expectBlockNum && headerByte h != c.candidate && headerByte h != c.expectedBlock
  | .bnOther b => c.fsm == .expectBlockNum && b != c.candidate && b != c.expectedBlock
  | .bcMatch b => c.fsm == .expectBlockNumComplement && b == c.complement
  | .bcHdr h => c.fsm == .expectBlockNumComplement && headerByte h != c.complement
  | .bcOther b => c.fsm == .expectBlockNumComplement && b != c.complement
  | .rdData _ => c.fsm == .receivingData
  | .chCrchi _ => c.fsm == .expectCrcHigh
  | .clCrcloBad b => c.fsm == .expectCrcLow && !c.crcMatches b
  | .clCrcloOk b => c.fsm == .expectCrcLow && c.crcMatches b
  | .prIgnored _ => c.fsm == .packetReady
  | .termIgnored _ => c.fsm == .success || c.fsm == .failure
  | .ack | .nackByte | .handshake => true
  | .stateAwaitHandshakeOrHeader => c.fsm == .awaitHandshakeOrHeader
  | .stateExpectBlockNum => c.fsm == .expectBlockNum
  | .stateExpectBlockNumComplement => c.fsm == .expectBlockNumComplement
  | .stateReceivingData => c.fsm == .receivingData
  | .stateExpectCrcHigh => c.fsm == .expectCrcHigh
  | .stateExpectCrcLow => c.fsm == .expectCrcLow
  | .statePacketReady => c.fsm == .packetReady
  | .stateSuccess => c.fsm == .success
  | .stateFailure => c.fsm == .failure

/-! ## Decoding -/

/-- Why a word of the table's formats is no row. -/
inductive DecodeError where
  /-- A byte that the block never emits (30_encoding.md R71). -/
  | notEmitted (b : Byte)
  /-- A code above 8 (30_encoding.md R81: "Codes 9 to 15 are never returned"). -/
  | noSuchState (c : StateCode)
deriving DecidableEq, Repr

/-- The operation code `op = cmd[34:32]` (R82). -/
def opField (w : CmdWord) : BitVec 3 := w.extractLsb' 32 3

/-- The operand `arg = cmd[31:0]` (R82). -/
def argField (w : CmdWord) : BitVec 32 := w.extractLsb' 0 32

/-- Command words (R82, R84): total, since the eight values of `op` are eight rows. FEED reads `arg[7:0]`, TICK all of
`arg`; the ignored bits may hold any value (R84). -/
def decodeCommand (w : CmdWord) : Instr :=
  if opField w = 0#3 then .feed ((argField w).setWidth 8)
  else if opField w = 1#3 then .tick (argField w)
  else if opField w = 2#3 then .extract
  else if opField w = 3#3 then .qstate
  else if opField w = 4#3 then .qfin
  else if opField w = 5#3 then .reserved5
  else if opField w = 6#3 then .reserved6
  else .reserved7

/-- The class of an input byte, tested in the order of 30_encoding.md R77. -/
def decodeWire (c : RowCtx) (b : Byte) : Instr :=
  match c.fsm with
  | .awaitHandshakeOrHeader =>
    if b = hdrStd then .awHdrStd
    else if b = hdrExt then .awHdrExt
    else if b = eotByte then .awEot
    else .awNoise b
  | .expectBlockNum =>
    if b = c.candidate then .bnNext b
    else if b = c.expectedBlock then .bnDup b
    else if isHeader b then .bnHdr (b.setWidth 2)
    else .bnOther b
  | .expectBlockNumComplement =>
    if b = c.complement then .bcMatch b
    else if isHeader b then .bcHdr (b.setWidth 2)
    else .bcOther b
  | .receivingData => .rdData b
  | .expectCrcHigh => .chCrchi b
  | .expectCrcLow => if c.crcMatches b then .clCrcloOk b else .clCrcloBad b
  | .packetReady => .prIgnored b
  | .success => .termIgnored b
  | .failure => .termIgnored b

/-- An emitted byte read back (R71). -/
def decodeOutput (c : RowCtx) (b : Byte) : Except DecodeError Instr :=
  if b = ackByte then .ok .ack
  else if b = handshakeByte then .ok .handshake
  else if b = c.nackByte then .ok .nackByte
  else .error (.notEmitted b)

/-- A state code read back (R81). -/
def decodeStateCode (c : StateCode) : Except DecodeError Instr :=
  if c = 0#4 then .ok .stateAwaitHandshakeOrHeader
  else if c = 1#4 then .ok .stateExpectBlockNum
  else if c = 2#4 then .ok .stateExpectBlockNumComplement
  else if c = 3#4 then .ok .stateReceivingData
  else if c = 4#4 then .ok .stateExpectCrcHigh
  else if c = 5#4 then .ok .stateExpectCrcLow
  else if c = 6#4 then .ok .statePacketReady
  else if c = 7#4 then .ok .stateSuccess
  else if c = 8#4 then .ok .stateFailure
  else .error (.noSuchState c)

/-- The decoder of the four formats: total, rejecting by name. -/
def decode (c : RowCtx) : Encoded → Except DecodeError Instr
  | .cmd35 w => .ok (decodeCommand w)
  | .wireIn8 b => .ok (decodeWire c b)
  | .wireOut8 b => decodeOutput c b
  | .state4 k => decodeStateCode k

/-! ## Encoding -/

/-- A command word with the given operation code and operand (R82). -/
def commandWord (op : BitVec 3) (arg : BitVec 32) : CmdWord := op ++ arg

/-- The word of a row; ignored bits are written as zeros, and `nack` is the configured NACK byte (R71). -/
def encode (nack : Byte) : Instr → Encoded
  | .feed b => .cmd35 (commandWord 0#3 (b.setWidth 32))
  | .tick now => .cmd35 (commandWord 1#3 now)
  | .extract => .cmd35 (commandWord 2#3 0#32)
  | .qstate => .cmd35 (commandWord 3#3 0#32)
  | .qfin => .cmd35 (commandWord 4#3 0#32)
  | .reserved5 => .cmd35 (commandWord 5#3 0#32)
  | .reserved6 => .cmd35 (commandWord 6#3 0#32)
  | .reserved7 => .cmd35 (commandWord 7#3 0#32)
  | .awHdrStd => .wireIn8 hdrStd
  | .awHdrExt => .wireIn8 hdrExt
  | .awEot => .wireIn8 eotByte
  | .awNoise b => .wireIn8 b
  | .bnNext b => .wireIn8 b
  | .bnDup b => .wireIn8 b
  | .bnHdr h => .wireIn8 (headerByte h)
  | .bnOther b => .wireIn8 b
  | .bcMatch b => .wireIn8 b
  | .bcHdr h => .wireIn8 (headerByte h)
  | .bcOther b => .wireIn8 b
  | .rdData b => .wireIn8 b
  | .chCrchi b => .wireIn8 b
  | .clCrcloBad b => .wireIn8 b
  | .clCrcloOk b => .wireIn8 b
  | .prIgnored b => .wireIn8 b
  | .termIgnored b => .wireIn8 b
  | .ack => .wireOut8 ackByte
  | .nackByte => .wireOut8 nack
  | .handshake => .wireOut8 handshakeByte
  | .stateAwaitHandshakeOrHeader => .state4 (FsmState.awaitHandshakeOrHeader).code
  | .stateExpectBlockNum => .state4 (FsmState.expectBlockNum).code
  | .stateExpectBlockNumComplement => .state4 (FsmState.expectBlockNumComplement).code
  | .stateReceivingData => .state4 (FsmState.receivingData).code
  | .stateExpectCrcHigh => .state4 (FsmState.expectCrcHigh).code
  | .stateExpectCrcLow => .state4 (FsmState.expectCrcLow).code
  | .statePacketReady => .state4 (FsmState.packetReady).code
  | .stateSuccess => .state4 (FsmState.success).code
  | .stateFailure => .state4 (FsmState.failure).code

/-! ## The table's words, for the host -/

/-- The word that `nbits` bits of value `w` are on the block's inputs: up to eight bits are one byte of the wire
(R70); more are a command word (R82), which has 35 bits. -/
def tableInput (nbits w : Nat) : Option Encoded :=
  if nbits ≤ 8 ∧ w < 256 then some (.wireIn8 (BitVec.ofNat 8 w))
  else if w < 2 ^ 35 then some (.cmd35 (BitVec.ofNat 35 w))
  else none

/-- The instruction the decoder reads from a word of the table. The class of a wire byte depends on the Session (R77):
it is read in the reset state, the state in which a first instruction runs. -/
def decodeTableWord (nbits w : Nat) : Option Instr :=
  match tableInput nbits w with
  | some e => (decode RowCtx.reset e).toOption
  | none => none

end Sys2Proof
end

