-- ==== Sys2Proof/Machine/State.lean ====
section
/-! DEFINITION. The state of the machine: the Session (10_state.md R20), the configuration, and the ports through
which one deterministic step sees the caller (00_scope.md R11). State, Fault, Refusal and the reset state. -/

namespace Sys2Proof.Machine

open Sys2Proof

/-- `packet_buffer` (10_state.md R23, 20_memory.md R50): the bytes stored since reset, by index, in rising order. An
index that is not listed has not been written since reset and holds no value (R44, R54; log entry 2). -/
abbrev Memory := List Host.Cell

/-- What the caller or the outside presents next (log entry 3). -/
inductive Input where
  /-- A command word on the command port (30_encoding.md R82). -/
  | command (w : CmdWord)
  /-- A byte of the wire, handed to the block's byte intake (30_encoding.md R70; log entry 4). -/
  | wireByte (b : Byte)
  /-- The reset input is asserted (70_reset_and_hazards.md R210). -/
  | reset
  /-- From now on the caller supplies EXTRACT with a destination of this many bytes (20_memory.md R56). -/
  | destination (capacity : Nat)
deriving DecidableEq, Repr

/-- The response of an operation (30_encoding.md R83). TICK has none. -/
inductive Response where
  /-- FEED: `packet_ready`. -/
  | feed (packetReady : Bool)
  /-- EXTRACT with `valid = 0`: nothing available. -/
  | nothingAvailable
  /-- EXTRACT with `valid = 1`: the block number, the length and the bytes written to the destination. -/
  | delivered (blockNum : Byte) (length : Len) (payload : List Byte)
  /-- QSTATE: the 4-bit state code. -/
  | stateCode (code : StateCode)
  /-- QFIN: `finished`. -/
  | finished (yes : Bool)
deriving DecidableEq, Repr

/-- All state. The first thirteen fields are the Session (10_state.md R20 to R34, R44); `cfg` is the configuration,
which no operation changes (R36); the last five are the model's own ports (log entries 3, 5 and 6). -/
structure State where
  /-- `state`, the sequencer (R21). -/
  state : FsmState
  /-- `expected_block` (R22). -/
  expectedBlock : Byte
  /-- `packet_buffer` (R23). -/
  packetBuffer : Memory
  /-- `packet_size` (R24). -/
  packetSize : Len
  /-- `fill_position` (R25). -/
  fillPosition : Len
  /-- `received_crc` (R26). -/
  receivedCrc : Crc
  /-- `computed_crc` (R27). -/
  computedCrc : Crc
  /-- `is_duplicate_block` (R28). -/
  isDuplicateBlock : Bool
  /-- `last_activity_time` (R29). -/
  lastActivityTime : Time
  /-- `error_count` (R30). -/
  errorCount : BitVec 8
  /-- `current_time` (R32). -/
  currentTime : Time
  /-- `block_seen` (R33). -/
  blockSeen : Bool
  /-- `time_valid` (R34). -/
  timeValid : Bool
  /-- The configuration (00_scope.md R7). -/
  cfg : Config
  /-- The operations the caller has yet to issue, first one first (20_memory.md R63). -/
  input : List Input
  /-- The capacity in bytes of the destination the caller supplies (20_memory.md R56). -/
  destCapacity : Nat
  /-- `tx`: the bytes the last operation handed to the output sink (00_scope.md R11, 10_state.md R31). -/
  tx : List Byte
  /-- The response of the last operation (R83). -/
  response : Option Response
  /-- The events the last operation met (00_scope.md R10, `event <Name>`). Nothing reads it. -/
  events : List Event
deriving DecidableEq, Repr

/-- Why the machine stops. Both are accesses to the packet buffer that no state reached from reset makes. -/
inductive Fault where
  /-- Raised by a buffer read or write at an index of 1024 or more, which does not exist (20_memory.md R50). Safe. -/
  | bufferIndexOutOfRange (index : Nat)
  /-- Raised by a read of a buffer byte that nothing has written since reset (20_memory.md R54,
  93_implementation_defined.md U8). Safe. -/
  | bufferByteUnwritten (index : Nat)
deriving DecidableEq, Repr

/-- Why an operation is given no step. -/
inductive Refusal where
  /-- Raised by an arm of exec whose instruction has no meaning yet. Safe. -/
  | notModelled (mnemonic : String)
  /-- Raised by the reserved command codes 5, 6 and 7 (30_encoding.md R84: "a model refuses them"). Safe. -/
  | reservedCommand (code : BitVec 3)
  /-- Raised by an EXTRACT that delivers `needed` bytes to a destination of `capacity` bytes, where `capacity` is
  smaller (93_implementation_defined.md U3: "refuse"). Safe. -/
  | destinationTooSmall (capacity needed : Nat)
deriving DecidableEq, Repr

/-- The outcome of one operation. -/
abbrev Result := Host.Outcome State Fault Refusal

/-- The machine right after reset (10_state.md R44, 70_reset_and_hazards.md R211), with the reference configuration
(log entry 1) and ports that hold nothing (log entries 3, 5 and 6). -/
def State.reset : State :=
  { state := .awaitHandshakeOrHeader
    expectedBlock := 0#8
    packetBuffer := []
    packetSize := sizeStd
    fillPosition := 0#11
    receivedCrc := 0#16
    computedCrc := 0#16
    isDuplicateBlock := false
    lastActivityTime := 0#32
    errorCount := 0#8
    currentTime := 0#32
    blockSeen := false
    timeValid := false
    cfg := Config.reference
    input := []
    destCapacity := 1024
    tx := []
    response := none
    events := [] }

end Sys2Proof.Machine
end

