-- ==== Sys2Proof/Machine/Crc.lean ====
section
/-! DEFINITION. The CRC16 engine: a pure function with no state of its own (40_crc16.md). -/

namespace Sys2Proof.Machine

open Sys2Proof

/-- `CRC_POLY` (00_scope.md R7). -/
def crcPoly : Crc := Config.reference.crcPoly

/-- `CRC_SEED` (00_scope.md R7). -/
def crcSeed : Crc := Config.reference.crcSeed

/-- One of the eight shifts of 40_crc16.md R100; bit 15 is tested before the shift. -/
def crcShift (c : Crc) : Crc :=
  if c.getLsbD 15 then (c <<< 1) ^^^ crcPoly else c <<< 1

/-- `n` shifts in a row. -/
def crcShifts : Nat → Crc → Crc
  | 0, c => c
  | n + 1, c => crcShifts n (crcShift c)

/-- `crc16_update(crc, byte)` (40_crc16.md R100): the byte enters bits 15:8, then eight shifts. -/
def crc16Update (c : Crc) (b : Byte) : Crc :=
  crcShifts 8 (c ^^^ (b.setWidth 16 <<< 8))

/-- `crc16(bytes)` (40_crc16.md R101): the left fold from the seed. -/
def crc16 (bytes : List Byte) : Crc := bytes.foldl crc16Update crcSeed

end Sys2Proof.Machine
end

