-- ==== Sys2Proof/Machine/Ops.lean ====
section
/-! DEFINITION. The named operations over the packet buffer and the registers, the output sink, the shared operation
of taking an event (60_exceptions.md R187, R190) and the reset of the Session (70_reset_and_hazards.md R210). -/

namespace Sys2Proof.Machine

open Sys2Proof

/-! ## The packet buffer (20_memory.md) -/

/-- `BUF_CAP` (00_scope.md R7, 20_memory.md R50). -/
def bufCap : Nat := Config.reference.bufCap

/-- The byte listed at an index, if one is. -/
def Memory.find : Memory → Nat → Option Byte
  | [], _ => none
  | (k, v) :: rest, i => if k = i then some v else Memory.find rest i

/-- The list with the byte at an index put in its place. -/
def Memory.put : Memory → Nat → Byte → Memory
  | [], i, b => [(i, b)]
  | (k, v) :: rest, i, b =>
    if i < k then (i, b) :: (k, v) :: rest
    else if i = k then (i, b) :: rest
    else (k, v) :: Memory.put rest i b

/-- `MemRead(i, 1)` (00_scope.md R10): an index of 1024 or more does not exist (R50); a byte not written since reset has
no value (R54). -/
def Memory.read (m : Memory) (i : Nat) : Except Fault Byte :=
  if i < bufCap then
    match m.find i with
    | some b => .ok b
    | none => .error (.bufferByteUnwritten i)
  else .error (.bufferIndexOutOfRange i)

/-- `MemWrite(i, 1, v)` (00_scope.md R10). -/
def Memory.write (m : Memory) (i : Nat) (b : Byte) : Except Fault Memory :=
  if i < bufCap then .ok (m.put i b) else .error (.bufferIndexOutOfRange i)

/-- The bytes at `count` indices from `start` upwards, in ascending order (20_memory.md R53). -/
def Memory.readRange (m : Memory) : Nat → Nat → Except Fault (List Byte)
  | _, 0 => .ok []
  | start, count + 1 =>
    match m.read start with
    | .error f => .error f
    | .ok b =>
      match Memory.readRange m (start + 1) count with
      | .error f => .error f
      | .ok bs => .ok (b :: bs)

/-- Every listed index lies above `low`, rising. -/
def Memory.risesFrom : Nat → Memory → Bool
  | _, [] => true
  | low, (k, _) :: rest => decide (low ≤ k) && Memory.risesFrom (k + 1) rest

/-- The canonical form of the buffer: indices strictly rising, each below `bufCap`. (An unlisted index reads as no
value, so no entry can equal what an unlisted index reads as.) -/
def Memory.wf (m : Memory) : Bool :=
  m.risesFrom 0 && m.all (fun cell => decide (cell.1 < bufCap))

/-- The buffered payload: `packet_buffer[0 .. packet_size - 1]` (20_memory.md R53). -/
def State.payload (s : State) : Except Fault (List Byte) :=
  s.packetBuffer.readRange 0 s.packetSize.toNat

/-! ## Registers and ports -/

/-- The start of an operation: its output list, response and events are empty (00_scope.md R11). -/
def State.clearPorts (s : State) : State := { s with tx := [], response := none, events := [] }

/-- `emit(b)` (00_scope.md R10): hand a byte to the output sink, which always accepts it (10_state.md R31). -/
def State.emit (s : State) (b : Byte) : State := { s with tx := s.tx ++ [b] }

/-- `return v` (00_scope.md R10): the operation's response. -/
def State.answer (s : State) (r : Response) : State := { s with response := some r }

/-- `state <- S` (00_scope.md R10). -/
def State.goto (s : State) (next : FsmState) : State := { s with state := next }

/-- The activity stamp of FEED and EXTRACT: `last_activity_time <- current_time` (10_state.md R29). -/
def State.stamp (s : State) : State := { s with lastActivityTime := s.currentTime }

/-- `current_time <- now` (10_state.md R32). -/
def State.latchTime (s : State) (now : Time) : State := { s with currentTime := now }

/-- Acceptance of a header marker: `packet_size <- size_of(b)`, `fill_position <- 0` (41_feed_byte.md R111). -/
def State.acceptHeader (s : State) (b : Byte) : State :=
  { s with packetSize := sizeOfHeader b, fillPosition := 0#11 }

/-- `error_count <- error_count + 1`, an 8-bit register (10_state.md R30). -/
def State.countError (s : State) : State := { s with errorCount := s.errorCount + 1#8 }

/-- `event <Name>` (00_scope.md R10): mark that the operation met the event. -/
def State.noteEvent (s : State) (e : Event) : State := { s with events := s.events ++ [e] }

/-! ## Taking an event

The block has no trap mechanism: nothing is raised to the caller and nothing is saved (60_exceptions.md R180, R190).
What an event changes is its row of R187: what is emitted, `error_count`, and the next `state`. -/

/-- The one operation of taking an event (60_exceptions.md R187, R190). The arm that meets the event supplies the next
state, which for FramingDesync, DuplicateBlock and Stall depends on where it is met. The control byte of a stall and
the ACK owed for a duplicate are emitted by the arms that R187 names for them (42_tick.md R147, 43 R161). -/
def State.takeEvent (s : State) (e : Event) (next : FsmState) : State :=
  match e with
  | .framingDesync => (s.noteEvent e).goto next
  | .crcMismatch => (((s.noteEvent e).emit s.cfg.nackByte).countError).goto next
  | .duplicateBlock => (s.noteEvent e).goto next
  | .stall => ((s.noteEvent e).countError).goto next
  | .maxErrorsExceeded => (s.noteEvent e).goto next
  | .endOfTransmission => ((s.noteEvent e).emit ackByte).goto next

/-! ## Reset -/

/-- The reset input (70_reset_and_hazards.md R210, R211, R212): every register of the Session at its value of
10_state.md R44; nothing is emitted. The configuration and the caller's side stay as they are. -/
def State.resetSession (s : State) : State :=
  { State.reset with cfg := s.cfg, input := s.input, destCapacity := s.destCapacity }

end Sys2Proof.Machine
end

