-- ==== Sys2Proof/Machine/Operands.lean ====
section
/-! DEFINITION. The operands that the rules compute from the Session: block numbers (30_encoding.md R74, R75), the
elapsed time (42_tick.md R144), the interval and control byte of the phase (42_tick.md R145, R146), and the context in
which an input byte is classified (30_encoding.md R77). -/

namespace Sys2Proof.Machine

open Sys2Proof

/-- The wire number of the next block (30_encoding.md R75). -/
def State.candidate (s : State) : Byte := candidateOf s.expectedBlock

/-- The complement required in EXPECT_BLOCK_NUM_COMPLEMENT (30_encoding.md R74, 41_feed_byte.md R118). -/
def State.requiredComplement (s : State) : Byte :=
  complementOf (acceptedOf s.expectedBlock s.isDuplicateBlock)

/-- The CRC of the buffered payload, none where a byte of it cannot be read. -/
def State.payloadCrc (s : State) : Option Crc :=
  match s.payload with
  | .ok bytes => some (crc16 bytes)
  | .error _ => none

/-- What the conditions of the table's rows read of this state. -/
def State.rowCtx (s : State) : RowCtx :=
  { fsm := s.state
    expectedBlock := s.expectedBlock
    isDuplicate := s.isDuplicateBlock
    receivedCrc := s.receivedCrc
    payloadCrc := s.payloadCrc
    nackByte := s.cfg.nackByte }

/-- `elapsed = (now - last_activity_time) mod 2^32` (42_tick.md R144). -/
def State.elapsed (s : State) (now : Time) : Time := now - s.lastActivityTime

/-- The pre-handshake phase (00_scope.md R13, 42_tick.md R145). -/
def State.preHandshake (s : State) : Bool :=
  s.state == .awaitHandshakeOrHeader && !s.blockSeen

/-- The interval of the phase (42_tick.md R145). -/
def State.interval (s : State) : Nat :=
  if s.preHandshake then s.cfg.handshakeIntervalMs else s.cfg.retryIntervalMs

/-- The control byte of a stall in this phase (42_tick.md R146). -/
def State.stallByte (s : State) : Byte :=
  if s.preHandshake then handshakeByte else s.cfg.nackByte

end Sys2Proof.Machine
end

