-- ==== Sys2Proof/Machine/Flags.lean ====
section
/-! DEFINITION. The derived outputs and the tests the rules make on the Session (10_state.md R35, 00_scope.md R13,
42_tick.md R145, R147). -/

namespace Sys2Proof.Machine

open Sys2Proof

/-- `packet_ready` (10_state.md R35). -/
def State.packetReady (s : State) : Bool := s.state == .packetReady

/-- `finished` (10_state.md R35): the terminal states. -/
def State.finished (s : State) : Bool := s.state == .success || s.state == .failure

/-- An active state: neither terminal nor holding a packet (00_scope.md R13). -/
def State.active (s : State) : Bool := !s.finished && !s.packetReady

/-- `stalled`: strictly more than the interval has elapsed at `now` (42_tick.md R145). -/
def State.stalled (s : State) (now : Time) : Bool := decide (s.interval < (s.elapsed now).toNat)

/-- `error_count > MAX_ERRORS` (42_tick.md R147). -/
def State.errorsExceeded (s : State) : Bool := decide (s.cfg.maxErrors.val < s.errorCount.toNat)

end Sys2Proof.Machine
end

