-- ==== Sys2Proof/Machine/Extract.lean ====
section
/-! DEFINITION. The EXTRACT operation (43_extract_and_queries.md R160 to R162). -/

namespace Sys2Proof.Machine

open Sys2Proof

/-- R160, the registers and ports after the payload was copied out. -/
def State.delivered (s : State) (payload : List Byte) : State :=
  let t : State := ({ s with expectedBlock := s.expectedBlock + 1#8, errorCount := 0#8 } : State).stamp
  ((t.emit ackByte).goto .awaitHandshakeOrHeader).answer (.delivered s.expectedBlock s.packetSize payload)

/-- R160, a new block. A destination that cannot hold `packet_size` bytes is a breach of the caller's duty, which a
model refuses (20_memory.md R56, 92_eei_decisions.md D21, 93_implementation_defined.md U3). -/
def State.deliver (s : State) : Result :=
  if s.destCapacity < s.packetSize.toNat then
    .refused (.destinationTooSmall s.destCapacity s.packetSize.toNat)
  else
    match s.payload with
    | .error f => .fault f
    | .ok payload => .next (s.delivered payload)

/-- R161, a duplicate: the event DuplicateBlock is acted on, the ACK it is owed is emitted, nothing is delivered. -/
def State.discardDuplicate (s : State) : State :=
  ((s.stamp.takeEvent .duplicateBlock .awaitHandshakeOrHeader).emit ackByte).answer .nothingAvailable

/-- R162, the operation as a whole. -/
def State.extractArms (s : State) : Result :=
  if !s.packetReady then .next (s.answer .nothingAvailable)
  else if !s.isDuplicateBlock then s.deliver
  else .next s.discardDuplicate

/-- EXTRACT (R162). -/
def execExtract (s : State) : Result := s.clearPorts.extractArms

end Sys2Proof.Machine
end

