-- ==== Sys2Proof/Machine/Outputs.lean ====
section
/-! DEFINITION. The rows WIRE_OUT8 of the opcode table, the bytes the block emits (30_encoding.md R71): the effect of
such a row is the emission itself, `emit(b)` of 00_scope.md R10 (log entry 7). -/

namespace Sys2Proof.Machine

open Sys2Proof

/-- ACK, 0x06 (R71). -/
def execAck (s : State) : Result := .next (s.clearPorts.emit ackByte)

/-- NACK_BYTE, the configured byte (R71). -/
def execNackByte (s : State) : Result := .next (s.clearPorts.emit s.cfg.nackByte)

/-- HANDSHAKE, 0x43 (R71). -/
def execHandshake (s : State) : Result := .next (s.clearPorts.emit handshakeByte)

end Sys2Proof.Machine
end

