-- ==== Sys2Proof/Machine/Queries.lean ====
section
/-! DEFINITION. The queries QSTATE and QFIN (43_extract_and_queries.md R163, R164), and the rows STATE4 of the opcode
table, the codes QSTATE returns (30_encoding.md R81). -/

namespace Sys2Proof.Machine

open Sys2Proof

/-- The response of QSTATE: the code of `state` (R163). -/
def State.answerState (s : State) : State := s.clearPorts.answer (.stateCode s.state.code)

/-- QSTATE (R163). -/
def execQstate (s : State) : Result := .next s.answerState

/-- QFIN (R164). -/
def execQfin (s : State) : Result := .next (s.clearPorts.answer (.finished s.finished))

/-- A row STATE4: where the row's state is held, QSTATE's response is the row's code; elsewhere it is the code of the
state held (R81; log entry 7). -/
def State.asCode (s : State) (row : FsmState) (code : StateCode) : Result :=
  if s.state = row then .next (s.clearPorts.answer (.stateCode code)) else .next s.answerState

/-- STATE_AWAIT_HANDSHAKE_OR_HEADER (R81). -/
def execStateAwaitHandshakeOrHeader (s : State) : Result := s.asCode .awaitHandshakeOrHeader 0#4

/-- STATE_EXPECT_BLOCK_NUM (R81). -/
def execStateExpectBlockNum (s : State) : Result := s.asCode .expectBlockNum 1#4

/-- STATE_EXPECT_BLOCK_NUM_COMPLEMENT (R81). -/
def execStateExpectBlockNumComplement (s : State) : Result := s.asCode .expectBlockNumComplement 2#4

/-- STATE_RECEIVING_DATA (R81). -/
def execStateReceivingData (s : State) : Result := s.asCode .receivingData 3#4

/-- STATE_EXPECT_CRC_HIGH (R81). -/
def execStateExpectCrcHigh (s : State) : Result := s.asCode .expectCrcHigh 4#4

/-- STATE_EXPECT_CRC_LOW (R81). -/
def execStateExpectCrcLow (s : State) : Result := s.asCode .expectCrcLow 5#4

/-- STATE_PACKET_READY (R81). -/
def execStatePacketReady (s : State) : Result := s.asCode .packetReady 6#4

/-- STATE_SUCCESS (R81). -/
def execStateSuccess (s : State) : Result := s.asCode .success 7#4

/-- STATE_FAILURE (R81). -/
def execStateFailure (s : State) : Result := s.asCode .failure 8#4

end Sys2Proof.Machine
end

