-- ==== Sys2Proof/Machine/Reserved.lean ====
section
/-! DEFINITION. The reserved command codes (30_encoding.md R84): "a model refuses them (gives them no step)". -/

namespace Sys2Proof.Machine

open Sys2Proof

/-- RESERVED_5 (R84). -/
def execReserved5 (_ : State) : Result := .refused (.reservedCommand 5#3)

/-- RESERVED_6 (R84). -/
def execReserved6 (_ : State) : Result := .refused (.reservedCommand 6#3)

/-- RESERVED_7 (R84). -/
def execReserved7 (_ : State) : Result := .refused (.reservedCommand 7#3)

end Sys2Proof.Machine
end

