-- ==== Sys2Proof/Machine/Tick.lean ====
section
/-! DEFINITION. The TICK operation (42_tick.md): its four arms R141, R142, R143, R148, and the dispatch of R140. -/

namespace Sys2Proof.Machine

open Sys2Proof

/-- R142, the first TICK after reset: the time is latched, and in the pre-handshake phase the handshake is initiated. -/
def State.tickFirst (s : State) (now : Time) : State :=
  let t : State := { s with timeValid := true, currentTime := now, lastActivityTime := now }
  if t.preHandshake then t.emit handshakeByte else t

/-- R143, a packet waits: the time is latched and nothing else. -/
def State.tickHolding (s : State) (now : Time) : State := s.latchTime now

/-- R148, the stall test: a stalled TICK is the event Stall, which counts an error and leaves the state. -/
def State.tickCount (s : State) (now : Time) : State :=
  if s.stalled now then s.takeEvent .stall s.state else s

/-- R148 and R146: the control byte of the phase is emitted and the activity timer restarts at `now`. -/
def State.tickResend (s : State) (now : Time) : State :=
  { s with lastActivityTime := now }.emit s.stallByte

/-- R148 in an active state: latch, count a stall, then the test of R147, made stalled or not; only a stalled TICK that
does not end the Session emits. -/
def State.tickActive (s : State) (now : Time) : State :=
  let t := s.latchTime now
  let u := t.tickCount now
  if u.errorsExceeded then u.takeEvent .maxErrorsExceeded .failure
  else if t.stalled now then u.tickResend now
  else u

/-- The dispatch of R140. -/
def State.tickArms (s : State) (now : Time) : State :=
  if s.finished then s
  else if !s.timeValid then s.tickFirst now
  else if s.packetReady then s.tickHolding now
  else s.tickActive now

/-- TICK (R140). It has no response (30_encoding.md R83). -/
def execTick (now : Time) (s : State) : Result := .next (s.clearPorts.tickArms now)

end Sys2Proof.Machine
end

