-- ==== Sys2Proof/Machine/Feed.lean ====
section
/-! DEFINITION. The FEED operation (41_feed_byte.md): one definition per arm R111 to R126, and the dispatch of R110. An
arm takes the state after the ports were cleared; the response of R127 is added once, at the end. -/

namespace Sys2Proof.Machine

open Sys2Proof

/-! ## AWAIT_HANDSHAKE_OR_HEADER -/

/-- R111, a header marker. -/
def State.feedAwHeader (s : State) (b : Byte) : State :=
  ((s.acceptHeader b).stamp).goto .expectBlockNum

/-- R112, end-of-transmission: the event EndOfTransmission emits ACK and ends in SUCCESS. -/
def State.feedAwEot (s : State) : State := s.takeEvent .endOfTransmission .success

/-- R113, noise: the event FramingDesync, recovered by staying. -/
def State.feedAwNoise (s : State) : State := s.takeEvent .framingDesync .awaitHandshakeOrHeader

/-! ## EXPECT_BLOCK_NUM -/

/-- R114, the next block. -/
def State.feedBnNext (s : State) : State :=
  (({ s with isDuplicateBlock := false } : State).stamp).goto .expectBlockNumComplement

/-- R115, a duplicate block number: the event DuplicateBlock is noted. -/
def State.feedBnDup (s : State) : State :=
  (({ s with isDuplicateBlock := true } : State).stamp).takeEvent .duplicateBlock .expectBlockNumComplement

/-- R116, a header marker that is neither number. -/
def State.feedBnHeader (s : State) (b : Byte) : State :=
  ((s.acceptHeader b).stamp).takeEvent .framingDesync .expectBlockNum

/-- R117, any other byte. -/
def State.feedBnOther (s : State) : State := s.stamp.takeEvent .framingDesync .awaitHandshakeOrHeader

/-! ## EXPECT_BLOCK_NUM_COMPLEMENT -/

/-- R118, the required complement. -/
def State.feedBcMatch (s : State) : State :=
  (({ s with fillPosition := 0#11 } : State).stamp).goto .receivingData

/-- R119, a header marker that is not the complement. -/
def State.feedBcHeader (s : State) (b : Byte) : State :=
  ((s.acceptHeader b).stamp).takeEvent .framingDesync .expectBlockNum

/-- R120, any other byte. -/
def State.feedBcOther (s : State) : State := s.stamp.takeEvent .framingDesync .awaitHandshakeOrHeader

/-! ## RECEIVING_DATA -/

/-- R121, the registers once the byte is stored. -/
def State.dataStored (s : State) (m : Memory) : State :=
  let t : State := { s with packetBuffer := m, fillPosition := s.fillPosition + 1#11, errorCount := 0#8 }.stamp
  if t.fillPosition = t.packetSize then t.goto .expectCrcHigh else t

/-- R121, a payload byte is stored at the old `fill_position`. -/
def State.feedData (s : State) (b : Byte) : Result :=
  match s.packetBuffer.write s.fillPosition.toNat b with
  | .error f => .fault f
  | .ok m => .next (s.dataStored m)

/-! ## EXPECT_CRC_HIGH and EXPECT_CRC_LOW -/

/-- R122, the high CRC byte. -/
def State.feedCrcHigh (s : State) (b : Byte) : State :=
  (({ s with receivedCrc := b.setWidth 16 <<< 8 } : State).stamp).goto .expectCrcLow

/-- R123, the writes made in every case: the low CRC byte or-ed in, the CRC of the payload computed, the stamp. -/
def State.crcLatched (s : State) (b : Byte) (payload : List Byte) : State :=
  { s with receivedCrc := s.receivedCrc ||| b.setWidth 16, computedCrc := crc16 payload }.stamp

/-- R123, mismatch: the event CrcMismatch emits `NACK_BYTE`, counts an error and returns to the header wait. -/
def State.crcMismatch (s : State) : State := s.takeEvent .crcMismatch .awaitHandshakeOrHeader

/-- R124, match. -/
def State.crcMatch (s : State) : State := { s with blockSeen := true }.goto .packetReady

/-- R123 and R124: the comparison is made on the 16-bit values after both writes. -/
def State.feedCrcLow (s : State) (b : Byte) : Result :=
  match s.payload with
  | .error f => .fault f
  | .ok payload =>
    let t := s.crcLatched b payload
    if t.receivedCrc = t.computedCrc then .next t.crcMatch else .next t.crcMismatch

/-! ## The operation as a whole -/

/-- The dispatch of R110, on `state` and then on the class of `b`, in the order written there. -/
def State.feedArms (s : State) (b : Byte) : Result :=
  match s.state with
  | .awaitHandshakeOrHeader =>
    if isHeader b then .next (s.feedAwHeader b)
    else if b = eotByte then .next s.feedAwEot
    else .next s.feedAwNoise
  | .expectBlockNum =>
    if b = s.candidate then .next s.feedBnNext
    else if b = s.expectedBlock then .next s.feedBnDup
    else if isHeader b then .next (s.feedBnHeader b)
    else .next s.feedBnOther
  | .expectBlockNumComplement =>
    if b = s.requiredComplement then .next s.feedBcMatch
    else if isHeader b then .next (s.feedBcHeader b)
    else .next s.feedBcOther
  | .receivingData => s.feedData b
  | .expectCrcHigh => .next (s.feedCrcHigh b)
  | .expectCrcLow => s.feedCrcLow b
  | .packetReady => .next s
  | .success => .next s
  | .failure => .next s

/-- R127: the response of byte intake is `state = PACKET_READY` in the new state. -/
def answerFeed (r : Result) : Result :=
  match r with
  | .next t => .next (t.answer (.feed t.packetReady))
  | .fault f => .fault f
  | .refused e => .refused e

/-- Byte intake (R110). -/
def State.feedByte (s : State) (b : Byte) : Result := answerFeed (s.clearPorts.feedArms b)

/-- FEED (R110). -/
def execFeed (b : Byte) (s : State) : Result := s.feedByte b

end Sys2Proof.Machine
end

