-- ==== Sys2Proof/Machine/WireRows.lean ====
section
/-! DEFINITION. The rows WIRE_IN8 of the opcode table: an input byte under the class that 30_encoding.md R77 gives it.
Where the row's conditions hold, the byte has the effect of the row's own rule; where they do not, the byte is of
another class, and byte intake does what that class says (R77: "The class of an input byte depends on the state";
41_feed_byte.md R128: every byte in every state has exactly one arm; log entry 4). -/

namespace Sys2Proof.Machine

open Sys2Proof

/-- The byte `b` under the row `i`, whose own effect is `arm`. -/
def State.asRow (s : State) (i : Instr) (b : Byte) (arm : State → Result) : Result :=
  if i.wf && i.holdsIn s.rowCtx then answerFeed (arm s.clearPorts) else s.feedByte b

/-- AW_HDR_STD (41_feed_byte.md R111). -/
def execAwHdrStd (s : State) : Result :=
  s.asRow .awHdrStd hdrStd fun t => .next (t.feedAwHeader hdrStd)

/-- AW_HDR_EXT (41_feed_byte.md R111). -/
def execAwHdrExt (s : State) : Result :=
  s.asRow .awHdrExt hdrExt fun t => .next (t.feedAwHeader hdrExt)

/-- AW_EOT (41_feed_byte.md R112). -/
def execAwEot (s : State) : Result :=
  s.asRow .awEot eotByte fun t => .next t.feedAwEot

/-- AW_NOISE (41_feed_byte.md R113). -/
def execAwNoise (b : Byte) (s : State) : Result :=
  s.asRow (.awNoise b) b fun t => .next t.feedAwNoise

/-- BN_NEXT (41_feed_byte.md R114). -/
def execBnNext (b : Byte) (s : State) : Result :=
  s.asRow (.bnNext b) b fun t => .next t.feedBnNext

/-- BN_DUP (41_feed_byte.md R115). -/
def execBnDup (b : Byte) (s : State) : Result :=
  s.asRow (.bnDup b) b fun t => .next t.feedBnDup

/-- BN_HDR (41_feed_byte.md R116). -/
def execBnHdr (h : BitVec 2) (s : State) : Result :=
  s.asRow (.bnHdr h) (headerByte h) fun t => .next (t.feedBnHeader (headerByte h))

/-- BN_OTHER (41_feed_byte.md R117). -/
def execBnOther (b : Byte) (s : State) : Result :=
  s.asRow (.bnOther b) b fun t => .next t.feedBnOther

/-- BC_MATCH (41_feed_byte.md R118). -/
def execBcMatch (b : Byte) (s : State) : Result :=
  s.asRow (.bcMatch b) b fun t => .next t.feedBcMatch

/-- BC_HDR (41_feed_byte.md R119). -/
def execBcHdr (h : BitVec 2) (s : State) : Result :=
  s.asRow (.bcHdr h) (headerByte h) fun t => .next (t.feedBcHeader (headerByte h))

/-- BC_OTHER (41_feed_byte.md R120). -/
def execBcOther (b : Byte) (s : State) : Result :=
  s.asRow (.bcOther b) b fun t => .next t.feedBcOther

/-- RD_DATA (41_feed_byte.md R121). -/
def execRdData (b : Byte) (s : State) : Result :=
  s.asRow (.rdData b) b fun t => t.feedData b

/-- CH_CRCHI (41_feed_byte.md R122). -/
def execChCrchi (b : Byte) (s : State) : Result :=
  s.asRow (.chCrchi b) b fun t => .next (t.feedCrcHigh b)

/-- CL_CRCLO_BAD (41_feed_byte.md R123). -/
def execClCrcloBad (b : Byte) (s : State) : Result :=
  s.asRow (.clCrcloBad b) b fun t =>
    match t.payload with
    | .error f => .fault f
    | .ok payload => .next (t.crcLatched b payload).crcMismatch

/-- CL_CRCLO_OK (41_feed_byte.md R124). -/
def execClCrcloOk (b : Byte) (s : State) : Result :=
  s.asRow (.clCrcloOk b) b fun t =>
    match t.payload with
    | .error f => .fault f
    | .ok payload => .next (t.crcLatched b payload).crcMatch

/-- PR_IGNORED (41_feed_byte.md R125). -/
def execPrIgnored (b : Byte) (s : State) : Result :=
  s.asRow (.prIgnored b) b fun t => .next t

/-- TERM_IGNORED (41_feed_byte.md R126). -/
def execTermIgnored (b : Byte) (s : State) : Result :=
  s.asRow (.termIgnored b) b fun t => .next t

end Sys2Proof.Machine
end

