-- ==== Sys2Proof/Machine/Dispatch.lean ====
section
/-! DEFINITION. The meaning of every row of spec/opcode_table.json, one arm each. -/

namespace Sys2Proof.Machine

open Sys2Proof

def exec (i : Instr) (s : State) : Host.Outcome State Fault Refusal :=
  match i with
  | .feed b => Sys2Proof.Machine.execFeed b s
  | .tick now => Sys2Proof.Machine.execTick now s
  | .extract => Sys2Proof.Machine.execExtract s
  | .qstate => Sys2Proof.Machine.execQstate s
  | .qfin => Sys2Proof.Machine.execQfin s
  | .reserved5 => Sys2Proof.Machine.execReserved5 s
  | .reserved6 => Sys2Proof.Machine.execReserved6 s
  | .reserved7 => Sys2Proof.Machine.execReserved7 s
  | .awHdrStd => Sys2Proof.Machine.execAwHdrStd s
  | .awHdrExt => Sys2Proof.Machine.execAwHdrExt s
  | .awEot => Sys2Proof.Machine.execAwEot s
  | .awNoise b => Sys2Proof.Machine.execAwNoise b s
  | .bnNext b => Sys2Proof.Machine.execBnNext b s
  | .bnDup b => Sys2Proof.Machine.execBnDup b s
  | .bnHdr h => Sys2Proof.Machine.execBnHdr h s
  | .bnOther b => Sys2Proof.Machine.execBnOther b s
  | .bcMatch b => Sys2Proof.Machine.execBcMatch b s
  | .bcHdr h => Sys2Proof.Machine.execBcHdr h s
  | .bcOther b => Sys2Proof.Machine.execBcOther b s
  | .rdData b => Sys2Proof.Machine.execRdData b s
  | .chCrchi b => Sys2Proof.Machine.execChCrchi b s
  | .clCrcloBad b => Sys2Proof.Machine.execClCrcloBad b s
  | .clCrcloOk b => Sys2Proof.Machine.execClCrcloOk b s
  | .prIgnored b => Sys2Proof.Machine.execPrIgnored b s
  | .termIgnored b => Sys2Proof.Machine.execTermIgnored b s
  | .ack => Sys2Proof.Machine.execAck s
  | .nackByte => Sys2Proof.Machine.execNackByte s
  | .handshake => Sys2Proof.Machine.execHandshake s
  | .stateAwaitHandshakeOrHeader => Sys2Proof.Machine.execStateAwaitHandshakeOrHeader s
  | .stateExpectBlockNum => Sys2Proof.Machine.execStateExpectBlockNum s
  | .stateExpectBlockNumComplement => Sys2Proof.Machine.execStateExpectBlockNumComplement s
  | .stateReceivingData => Sys2Proof.Machine.execStateReceivingData s
  | .stateExpectCrcHigh => Sys2Proof.Machine.execStateExpectCrcHigh s
  | .stateExpectCrcLow => Sys2Proof.Machine.execStateExpectCrcLow s
  | .statePacketReady => Sys2Proof.Machine.execStatePacketReady s
  | .stateSuccess => Sys2Proof.Machine.execStateSuccess s
  | .stateFailure => Sys2Proof.Machine.execStateFailure s

end Sys2Proof.Machine
end

