-- ==== Sys2Proof/Machine/Fetch.lean ====
section
/-! DEFINITION. What one pending input is: an operation for the decoder, or an action of the outside. -/

namespace Sys2Proof.Machine

open Sys2Proof

/-- The instruction an input carries: a command word decodes by itself (30_encoding.md R82), a wire byte by its class
in this state (R77). Reset and a change of destination are no operations (70_reset_and_hazards.md R210, R56). -/
def State.instructionOf (s : State) : Input → Option Instr
  | .command w => some (decodeCommand w)
  | .wireByte b => some (decodeWire s.rowCtx b)
  | .reset => none
  | .destination _ => none

/-- Whether an input is an operation of the block (00_scope.md R11). Reset and a change of destination are not: they run
no instruction and emit nothing. -/
def Input.isOperation : Input → Bool
  | .command _ => true
  | .wireByte _ => true
  | .reset => false
  | .destination _ => false

/-- The state once the first pending input is taken. -/
def State.consumed (s : State) (rest : List Input) : State := { s with input := rest }

/-- What the outside does to the block without an operation: reset (70_reset_and_hazards.md R210) and the caller's choice
of destination (20_memory.md R56). -/
def State.fromOutside (s : State) : Input → State
  | .command _ => s
  | .wireByte _ => s
  | .reset => s.resetSession
  | .destination capacity => { s with destCapacity := capacity }

/-- With no input pending, "nothing in the block runs on its own" (20_memory.md R68). -/
def State.idle (s : State) : State := s

/-- The input that the table's word of `nbits` bits is (Decode.lean, `tableInput`); a value too large for a command
word is cut to 35 bits. -/
def inputOfWord (nbits w : Nat) : Input :=
  match tableInput nbits w with
  | some (.wireIn8 b) => .wireByte b
  | some (.cmd35 c) => .command c
  | _ => .command (BitVec.ofNat 35 w)

/-- `s` with an input put before the pending ones, where `step` takes its next one. -/
def State.present (s : State) (i : Input) : State := { s with input := i :: s.input }

end Sys2Proof.Machine
end

