-- ==== Sys2Proof/Machine/Step.lean ====
section
/-! DEFINITION. One step: the next input the caller presents, taken whole (00_scope.md R11, 20_memory.md R63). -/

namespace Sys2Proof.Machine

open Sys2Proof

/-- One step. -/
def step (s : State) : Host.Outcome State Fault Refusal :=
  match s.input with
  | [] => .next s.idle
  | i :: rest =>
    match s.instructionOf i with
    | some instr => exec instr (s.consumed rest)
    | none => .next ((s.consumed rest).fromOutside i)

/-- `s` with the table's word at the head of the pending inputs (log entry 3). -/
def State.withFetchWord (s : State) (nbits w : Nat) : State := s.present (inputOfWord nbits w)

end Sys2Proof.Machine
end

