-- ==== Sys2Proof/Safety.lean ====
section
/-! DEFINITION. The terms in which claims are stated: the invariants of the Session (10_state.md R37 to R42), a safe
step, runs over a trace of inputs (20_memory.md R63), and the bytes of a packet (30_encoding.md R73). -/

namespace Sys2Proof.Safety

open Sys2Proof Sys2Proof.Machine

/-- The bound on `error_count` in each state (10_state.md R41): `MAX_ERRORS + 2` in FAILURE; `MAX_ERRORS + 1` where a
CRC mismatch can have been the last to count, which lasts until a payload byte is stored; `MAX_ERRORS` elsewhere. -/
def errorLimit (s : State) : Nat :=
  match s.state with
  | .failure => s.cfg.maxErrors.val + 2
  | .awaitHandshakeOrHeader => s.cfg.maxErrors.val + 1
  | .expectBlockNum => s.cfg.maxErrors.val + 1
  | .expectBlockNumComplement => s.cfg.maxErrors.val + 1
  | .success => s.cfg.maxErrors.val + 1
  | .receivingData => if s.fillPosition = 0#11 then s.cfg.maxErrors.val + 1 else s.cfg.maxErrors.val
  | .expectCrcHigh => s.cfg.maxErrors.val
  | .expectCrcLow => s.cfg.maxErrors.val
  | .packetReady => s.cfg.maxErrors.val

/-- The states in which a whole payload is in the buffer. -/
def payloadComplete (f : FsmState) : Bool := f == .expectCrcHigh || f == .expectCrcLow || f == .packetReady

/-- The invariant of the Session. -/
structure Inv (s : State) : Prop where
  /-- The buffer keeps its canonical form and holds no index of 1024 or more (20_memory.md R50). -/
  bufferCanonical : s.packetBuffer.wf = true
  /-- `packet_size` is 128 or 1024 (10_state.md R42). -/
  sizeLegal : s.packetSize = 128#11 ∨ s.packetSize = 1024#11
  /-- "`fill_position` never exceeds `packet_size`" (10_state.md R37). -/
  fillBounded : s.fillPosition.toNat ≤ s.packetSize.toNat
  /-- While payload is received there is room for the next byte (41_feed_byte.md R121). -/
  roomWhileReceiving : s.state = .receivingData → s.fillPosition.toNat < s.packetSize.toNat
  /-- From the last payload byte to the extraction the whole payload is there (10_state.md R38). -/
  fullWhenComplete : payloadComplete s.state = true → s.fillPosition = s.packetSize
  /-- Every byte below `fill_position` has been written since reset (20_memory.md R54). -/
  filledIsWritten : ∀ i, i < s.fillPosition.toNat → ∃ b, s.packetBuffer.read i = .ok b
  /-- Before the low CRC byte arrives the low half of `received_crc` is zero (41_feed_byte.md R122). -/
  lowHalfClear : s.state = .expectCrcLow → s.receivedCrc &&& 0x00FF#16 = 0#16
  /-- In PACKET_READY the payload's CRC matched (10_state.md R38). -/
  readyMatched : s.state = .packetReady → s.receivedCrc = s.computedCrc ∧ s.payloadCrc = some s.computedCrc
  /-- A waiting packet has been seen (10_state.md R33). -/
  readySeen : s.state = .packetReady → s.blockSeen = true
  /-- No block is delivered before one was seen (10_state.md R33, R39). -/
  unseenUndelivered : s.blockSeen = false → s.expectedBlock = 0#8
  /-- The bound on `error_count` (10_state.md R41). -/
  errorsBounded : s.errorCount.toNat ≤ errorLimit s
  /-- Until the first TICK no time is known (10_state.md R29, R32, R34). -/
  clockUnset : s.timeValid = false → s.currentTime = 0#32 ∧ s.lastActivityTime = 0#32

/-- A step that does not fault. -/
def Safe (s : State) : Prop := ∀ f, step s ≠ .fault f

/-! ## What an operation leaves -/

/-- The ports after an operation: its output list, its response and its events. -/
def ports (s : State) (tx : List Byte) (r : Option Response) (ev : List Event) : State :=
  { s with tx := tx, response := r, events := ev }

/-- Two states whose registers are the same: they differ at most in the pending inputs, the destination's capacity and
the ports, which are no part of the Session (10_state.md R36). -/
def SameSession (s t : State) : Prop :=
  t = { s with input := t.input, destCapacity := t.destCapacity, tx := t.tx, response := t.response,
               events := t.events }

/-- The buffered payload is `p`: `packet_size` bytes, each readable at its own index (20_memory.md R51, R53). -/
def HoldsPayload (s : State) (p : List Byte) : Prop :=
  p.length = s.packetSize.toNat ∧ ∀ k (h : k < p.length), s.packetBuffer.read k = .ok p[k]

/-! ## Traces -/

/-- The inputs of a trace taken one after another, each a step (20_memory.md R63). -/
def runInputs : List Input → State → Result
  | [], s => .next s
  | i :: rest, s =>
    match step (s.present i) with
    | .next t => runInputs rest t
    | .fault f => .fault f
    | .refused r => .refused r

/-- The bytes a trace hands to the output sink, in the order of emission (10_state.md R31, 20_memory.md R65), up to the
first operation that is given no step. Each operation adds its own list `tx`; an input that is no operation adds
nothing, though the list of the operation before it may still stand in the state (log entry 5). -/
def emittedBy : List Input → State → List Byte
  | [], _ => []
  | i :: rest, s =>
    match step (s.present i) with
    | .next t => (if i.isOperation then t.tx else []) ++ emittedBy rest t
    | .fault _ => []
    | .refused _ => []

/-- FEED of a byte as an input: the command word of 30_encoding.md R82. -/
def feedInput (b : Byte) : Input := .command (commandWord 0#3 (b.setWidth 32))

/-- TICK as an input. -/
def tickInput (now : Time) : Input := .command (commandWord 1#3 now)

/-- EXTRACT as an input. -/
def extractInput : Input := .command (commandWord 2#3 0#32)

/-- The bytes of the frame with wire number `w`, payload `p` and CRC field `c` (30_encoding.md R73; BADPACKET of R86):
the header marker of the payload's length, the number, its complement, the payload, and the field, high byte first. -/
def frameBytes (w : Byte) (p : List Byte) (c : Crc) : List Byte :=
  [if p.length = 128 then hdrStd else hdrExt, w, 0xFF#8 - w] ++ p ++ [c.extractLsb' 8 8, c.extractLsb' 0 8]

/-- The inputs that feed a frame. -/
def frameInputs (w : Byte) (p : List Byte) (c : Crc) : List Input := (frameBytes w p c).map feedInput

/-- The inputs that feed a packet, the frame that carries its payload's CRC (PACKET of 30_encoding.md R86). -/
def packetInputs (w : Byte) (p : List Byte) : List Input := frameInputs w p (crc16 p)

end Sys2Proof.Safety
end

