-- ==== Sys2Proof/Certificates/Slice0/Obligations.lean ====
section
/-! DEFINITION. The statements for the provers. A clause that rests on a decision of the spec (92_eei_decisions.md) or
on an entry of the assumption log is named in the statement's docstring; `events` is the model's own field (log
entry 5). -/

open Sys2Proof Sys2Proof.Machine Sys2Proof.Safety

/-! ## The step and the decoders -/

/-- A step runs the instruction that its next input decodes to, on the state with that input taken; reset and a change
of the destination are done by the outside. How inputs are presented is the model's choice (log entries 3 and 4). -/
def Obligations.StepRunsTheDecodedInput : Prop :=
  ∀ (s : State) (rest : List Input),
    (∀ w : CmdWord, s.input = .command w :: rest → step s = exec (decodeCommand w) { s with input := rest }) ∧
    (∀ b : Byte, s.input = .wireByte b :: rest → step s = exec (decodeWire s.rowCtx b) { s with input := rest }) ∧
    (s.input = .reset :: rest →
      step s = .next { State.reset with cfg := s.cfg, input := rest, destCapacity := s.destCapacity }) ∧
    (∀ n : Nat, s.input = .destination n :: rest → step s = .next { s with input := rest, destCapacity := n }) ∧
    (∀ w : Nat, w < 2 ^ 35 → step (s.withFetchWord 40 w) = exec (decodeCommand (BitVec.ofNat 35 w)) s) ∧
    (∀ w : Nat, w < 256 → step (s.withFetchWord 8 w) = exec (decodeWire s.rowCtx (BitVec.ofNat 8 w)) s)

/-- 20_memory.md R68: without a further operation the Session keeps its state for ever. -/
def Obligations.NoInputKeepsStateForever : Prop :=
  ∀ (s : State) (k : Nat), s.input = [] → Host.Core.run Sys2Proof.core k s = .next s

/-- 10_state.md R44, 70_reset_and_hazards.md R211: the reset values. Those of `state` and `expected_block` are the
document's; the others are the spec's decisions D5, D6, D8 and D19, and the unwritten buffer is log entry 2. -/
def Obligations.ResetLeavesTheTableOfResetValues : Prop :=
  State.reset.state = .awaitHandshakeOrHeader ∧ State.reset.expectedBlock = 0#8 ∧
  State.reset.packetSize = 128#11 ∧ State.reset.fillPosition = 0#11 ∧
  State.reset.receivedCrc = 0x0000#16 ∧ State.reset.computedCrc = 0x0000#16 ∧
  State.reset.isDuplicateBlock = false ∧ State.reset.lastActivityTime = 0#32 ∧
  State.reset.errorCount = 0#8 ∧ State.reset.currentTime = 0#32 ∧
  State.reset.blockSeen = false ∧ State.reset.timeValid = false ∧
  (∀ i : Nat, i < 1024 → State.reset.packetBuffer.read i = .error (.bufferByteUnwritten i)) ∧
  State.reset.tx = []

/-- 30_encoding.md R82, R77, R70 and R81 (the numbering is the spec's decisions D2 and D3): words written out from the
spec's encodings, each with the instruction it stands for. -/
def Obligations.WordsOfTheSpecDecode : Prop :=
  decodeCommand 0x0000000FE#35 = .feed 0xFE#8 ∧
  decodeCommand 0x0FFFFFF01#35 = .feed 0x01#8 ∧
  decodeCommand 0x10001869F#35 = .tick 99999#32 ∧
  decodeCommand 0x2DEADBEEF#35 = .extract ∧
  decodeCommand 0x300000000#35 = .qstate ∧
  decodeCommand 0x400000000#35 = .qfin ∧
  decodeCommand 0x7FFFFFFFF#35 = .reserved7 ∧
  decodeWire RowCtx.reset 0x02#8 = .awHdrExt ∧
  decodeWire { RowCtx.reset with fsm := .expectBlockNum, expectedBlock := 255#8 } 0x00#8 = .bnNext 0x00#8 ∧
  decodeWire { RowCtx.reset with fsm := .expectBlockNumComplement, expectedBlock := 253#8 } 0x01#8 = .bcMatch 0x01#8 ∧
  decodeOutput RowCtx.reset 0x43#8 = .ok .handshake ∧
  decodeStateCode 0x8#4 = .ok .stateFailure

/-- 30_encoding.md R82 and R84: `op` alone selects the row, FEED reads `arg[7:0]`, TICK reads all of `arg`, and the
ignored bits may hold any value. The command word is the spec's decisions D2 and D27. -/
def Obligations.CommandWordsIgnoreTheirSpareBits : Prop :=
  ∀ w : CmdWord, w = commandWord (w.extractLsb' 32 3) (w.extractLsb' 0 32) ∧
    (∀ arg : BitVec 32,
      decodeCommand (commandWord 0#3 arg) = .feed (arg.extractLsb' 0 8) ∧
      decodeCommand (commandWord 1#3 arg) = .tick arg ∧
      decodeCommand (commandWord 2#3 arg) = .extract ∧
      decodeCommand (commandWord 3#3 arg) = .qstate ∧
      decodeCommand (commandWord 4#3 arg) = .qfin ∧
      decodeCommand (commandWord 5#3 arg) = .reserved5 ∧
      decodeCommand (commandWord 6#3 arg) = .reserved6 ∧
      decodeCommand (commandWord 7#3 arg) = .reserved7)

/-- Decoding the word of a well-formed row gives the row back, in every context in which the row's conditions hold. A
NACK byte configured to equal ACK or HANDSHAKE is set apart: on the wire it cannot be told from them. -/
def Obligations.DecodeEncodeRoundTrip : Prop :=
  ∀ (i : Instr) (c : RowCtx), i.wf = true → i.holdsIn c = true →
    (i = .nackByte → c.nackByte ≠ 0x06#8 ∧ c.nackByte ≠ 0x43#8) →
    decode c (encode c.nackByte i) = .ok i

/-- 41_feed_byte.md R128, 30_encoding.md R77: for each state of the Session and each byte exactly one row of the input
classes applies, and it is the one the decoder gives. -/
def Obligations.EveryByteHasExactlyOneClass : Prop :=
  ∀ (c : RowCtx) (b : Byte) (i : Instr),
    (i.wf = true ∧ i.holdsIn c = true ∧ encode c.nackByte i = .wireIn8 b) ↔ i = decodeWire c b

/-- 30_encoding.md R77, 41_feed_byte.md R110: a row of the input classes is FEED of its byte. The row as an instruction
of its own is the model's reading of the table (log entry 4). -/
def Obligations.InputClassRowsActAsFeed : Prop :=
  ∀ (i : Instr) (s : State) (b : Byte), encode s.cfg.nackByte i = .wireIn8 b → exec i s = exec (.feed b) s

/-- A byte of the wire and the command word FEED of the same byte give the same step (log entry 4). -/
def Obligations.WireByteStepIsFeedStep : Prop :=
  ∀ (s : State) (b : Byte), step (s.present (.wireByte b)) = step (s.present (feedInput b))

/-! ## FEED, with the rows of its input classes -/

/-- 41_feed_byte.md R111: a header marker in AWAIT_HANDSHAKE_OR_HEADER. The clearing of `fill_position` and the stamp are
the spec's decisions D17 and D12. -/
def Obligations.FeedHeaderMarkerStartsAPacket : Prop :=
  ∀ s : State, s.state = .awaitHandshakeOrHeader →
    let t (size : Len) : State :=
      ports { s with state := .expectBlockNum, packetSize := size, fillPosition := 0#11,
                     lastActivityTime := s.currentTime } [] (some (.feed false)) []
    exec (.feed 0x01#8) s = .next (t 128#11) ∧ exec .awHdrStd s = .next (t 128#11) ∧
    exec (.feed 0x02#8) s = .next (t 1024#11) ∧ exec .awHdrExt s = .next (t 1024#11)

/-- 41_feed_byte.md R112, 60_exceptions.md R186: end-of-transmission, and the only way into SUCCESS. That the byte is
recognised in AWAIT_HANDSHAKE_OR_HEADER and nowhere else is the spec's decision D26 (30_encoding.md R78 is marked
derived), and that it does not stamp is D12; both are log entry 11. -/
def Obligations.FeedEndOfTransmissionSucceeds : Prop :=
  (∀ s : State, s.state = .awaitHandshakeOrHeader →
    let t : State := ports { s with state := .success } [0x06#8] (some (.feed false)) [.endOfTransmission]
    exec (.feed 0x04#8) s = .next t ∧ exec .awEot s = .next t) ∧
  (∀ (i : Instr) (s t : State), exec i s = .next t → t.state = .success → s.state ≠ .success →
    s.state = .awaitHandshakeOrHeader ∧ (i = .feed 0x04#8 ∨ encode s.cfg.nackByte i = .wireIn8 0x04#8))

/-- 41_feed_byte.md R113: noise changes no register. That it does not stamp is the spec's decision D12. -/
def Obligations.FeedNoiseIsIgnored : Prop :=
  ∀ (s : State) (b : Byte), s.state = .awaitHandshakeOrHeader → b ≠ 0x01#8 → b ≠ 0x02#8 → b ≠ 0x04#8 →
    exec (.feed b) s = .next (ports s [] (some (.feed false)) [.framingDesync]) ∧
    exec (.awNoise b) s = .next (ports s [] (some (.feed false)) [.framingDesync])

/-- 41_feed_byte.md R114: the next block's number. The stamp is the spec's decision D12. -/
def Obligations.FeedNextBlockNumberIsAccepted : Prop :=
  ∀ (s : State) (b : Byte), s.state = .expectBlockNum → b = s.expectedBlock + 1#8 →
    let t : State := ports { s with state := .expectBlockNumComplement, isDuplicateBlock := false,
                                    lastActivityTime := s.currentTime } [] (some (.feed false)) []
    exec (.feed b) s = .next t ∧ exec (.bnNext b) s = .next t

/-- 41_feed_byte.md R115: the number of the last delivered block. The stamp is the spec's decision D12, and that the rule
holds right after reset is D29. -/
def Obligations.FeedDuplicateBlockNumberIsAccepted : Prop :=
  ∀ (s : State) (b : Byte), s.state = .expectBlockNum → b ≠ s.expectedBlock + 1#8 → b = s.expectedBlock →
    let t : State := ports { s with state := .expectBlockNumComplement, isDuplicateBlock := true,
                                    lastActivityTime := s.currentTime } [] (some (.feed false)) [.duplicateBlock]
    exec (.feed b) s = .next t ∧ exec (.bnDup b) s = .next t

/-- 41_feed_byte.md R116 and R117: a byte that is neither number. A header marker is a fresh header (`packet_size` and
`fill_position` by the spec's decision D17); any other byte falls back. The stamps are D12. -/
def Obligations.FeedOtherBlockNumberResynchronises : Prop :=
  ∀ s : State, s.state = .expectBlockNum →
    (∀ h : BitVec 2, h = 1#2 ∨ h = 2#2 →
      h.setWidth 8 ≠ s.expectedBlock + 1#8 → h.setWidth 8 ≠ s.expectedBlock →
      let t : State := ports { s with packetSize := if h = 1#2 then 128#11 else 1024#11, fillPosition := 0#11,
                                      lastActivityTime := s.currentTime } [] (some (.feed false)) [.framingDesync]
      exec (.feed (h.setWidth 8)) s = .next t ∧ exec (.bnHdr h) s = .next t) ∧
    (∀ b : Byte, b ≠ s.expectedBlock + 1#8 → b ≠ s.expectedBlock → b ≠ 0x01#8 → b ≠ 0x02#8 →
      let t : State := ports { s with state := .awaitHandshakeOrHeader,
                                      lastActivityTime := s.currentTime } [] (some (.feed false)) [.framingDesync]
      exec (.feed b) s = .next t ∧ exec (.bnOther b) s = .next t)

/-- 41_feed_byte.md R118: the required complement, `0xFF` minus the number accepted. Which number that is after a
duplicate is the spec's decision D16; the stamp is D12. -/
def Obligations.FeedComplementOpensThePayload : Prop :=
  ∀ (s : State) (b : Byte), s.state = .expectBlockNumComplement →
    b = 0xFF#8 - (if s.isDuplicateBlock then s.expectedBlock else s.expectedBlock + 1#8) →
    let t : State := ports { s with state := .receivingData, fillPosition := 0#11,
                                    lastActivityTime := s.currentTime } [] (some (.feed false)) []
    exec (.feed b) s = .next t ∧ exec (.bcMatch b) s = .next t

/-- 41_feed_byte.md R119 and R120: a byte that is not the required complement. The spec's decisions are D16, D17, D12. -/
def Obligations.FeedWrongComplementResynchronises : Prop :=
  ∀ s : State, s.state = .expectBlockNumComplement →
    let required : Byte := 0xFF#8 - (if s.isDuplicateBlock then s.expectedBlock else s.expectedBlock + 1#8)
    (∀ h : BitVec 2, h = 1#2 ∨ h = 2#2 → h.setWidth 8 ≠ required →
      let t : State := ports { s with state := .expectBlockNum,
                                      packetSize := if h = 1#2 then 128#11 else 1024#11, fillPosition := 0#11,
                                      lastActivityTime := s.currentTime } [] (some (.feed false)) [.framingDesync]
      exec (.feed (h.setWidth 8)) s = .next t ∧ exec (.bcHdr h) s = .next t) ∧
    (∀ b : Byte, b ≠ required → b ≠ 0x01#8 → b ≠ 0x02#8 →
      let t : State := ports { s with state := .awaitHandshakeOrHeader,
                                      lastActivityTime := s.currentTime } [] (some (.feed false)) [.framingDesync]
      exec (.feed b) s = .next t ∧ exec (.bcOther b) s = .next t)

/-- 41_feed_byte.md R121: a payload byte goes to the index `fill_position`, every other index reads as before, the count
of errors is cleared, and the last byte moves on. The stamp is the spec's decision D12; that only payload bytes clear
the count is D13. -/
def Obligations.FeedStoresAPayloadByte : Prop :=
  ∀ (s : State) (b : Byte), s.state = .receivingData → s.fillPosition.toNat < 1024 →
    ∃ m : Memory,
      (let t : State :=
        ports { s with state := if s.fillPosition + 1#11 = s.packetSize then .expectCrcHigh else .receivingData,
                       packetBuffer := m, fillPosition := s.fillPosition + 1#11, errorCount := 0#8,
                       lastActivityTime := s.currentTime } [] (some (.feed false)) []
       exec (.feed b) s = .next t ∧ exec (.rdData b) s = .next t) ∧
      m.read s.fillPosition.toNat = .ok b ∧
      ∀ a : Nat, a ≠ s.fillPosition.toNat → m.read a = s.packetBuffer.read a

/-- Where byte intake and delivery stop: at an index the buffer does not have (20_memory.md R50) or at a payload byte
that nothing has written (93_implementation_defined.md U8; log entry 2). No state with the invariant is such a state. The
row RD_DATA as an instruction of its own is log entry 4. -/
def Obligations.MissingBufferBytesFault : Prop :=
  ∀ s : State,
    (∀ b : Byte, s.state = .receivingData → 1024 ≤ s.fillPosition.toNat →
      exec (.feed b) s = .fault (.bufferIndexOutOfRange s.fillPosition.toNat) ∧
      exec (.rdData b) s = .fault (.bufferIndexOutOfRange s.fillPosition.toNat)) ∧
    (∀ k : Nat, k < s.packetSize.toNat → k < 1024 → (∀ j : Nat, j < k → ∃ b, s.packetBuffer.read j = .ok b) →
      s.packetBuffer.read k = .error (.bufferByteUnwritten k) →
      (∀ b : Byte, s.state = .expectCrcLow → exec (.feed b) s = .fault (.bufferByteUnwritten k)) ∧
      (s.state = .packetReady → s.isDuplicateBlock = false → s.packetSize.toNat ≤ s.destCapacity →
        exec .extract s = .fault (.bufferByteUnwritten k)))

/-- 41_feed_byte.md R122: the high CRC byte. The stamp is the spec's decision D12. -/
def Obligations.FeedHighCrcByteIsLatched : Prop :=
  ∀ (s : State) (b : Byte), s.state = .expectCrcHigh →
    let t : State := ports { s with state := .expectCrcLow, receivedCrc := b ++ 0x00#8,
                                    lastActivityTime := s.currentTime } [] (some (.feed false)) []
    exec (.feed b) s = .next t ∧ exec (.chCrchi b) s = .next t

/-- 41_feed_byte.md R123: a mismatch is answered with the NACK byte and counted. That FEED does not enter FAILURE is the
spec's decision D11; the stamp is D12. -/
def Obligations.FeedCrcMismatchIsNacked : Prop :=
  ∀ (s : State) (b : Byte) (p : List Byte), s.state = .expectCrcLow → HoldsPayload s p →
    s.receivedCrc ||| b.setWidth 16 ≠ crc16 p →
    let t : State := ports { s with state := .awaitHandshakeOrHeader, receivedCrc := s.receivedCrc ||| b.setWidth 16,
                                    computedCrc := crc16 p, errorCount := s.errorCount + 1#8,
                                    lastActivityTime := s.currentTime }
                           [s.cfg.nackByte] (some (.feed false)) [.crcMismatch]
    exec (.feed b) s = .next t ∧ exec (.clCrcloBad b) s = .next t

/-- 41_feed_byte.md R124: a match makes the packet ready and emits nothing. `block_seen` is the spec's decision D8, the
stamp D12; that a duplicate becomes ready too is D15. -/
def Obligations.FeedCrcMatchMakesThePacketReady : Prop :=
  ∀ (s : State) (b : Byte) (p : List Byte), s.state = .expectCrcLow → HoldsPayload s p →
    s.receivedCrc ||| b.setWidth 16 = crc16 p →
    let t : State := ports { s with state := .packetReady, receivedCrc := s.receivedCrc ||| b.setWidth 16,
                                    computedCrc := crc16 p, blockSeen := true,
                                    lastActivityTime := s.currentTime } [] (some (.feed true)) []
    exec (.feed b) s = .next t ∧ exec (.clCrcloOk b) s = .next t

/-- 41_feed_byte.md R125: bytes are ignored while a packet waits. The row PR_IGNORED as an instruction of its own is the
model's choice (log entry 4). -/
def Obligations.FeedIsIgnoredWhileAPacketWaits : Prop :=
  ∀ (s : State) (b : Byte), s.state = .packetReady →
    exec (.feed b) s = .next (ports s [] (some (.feed true)) []) ∧
    exec (.prIgnored b) s = .next (ports s [] (some (.feed true)) [])

/-- 41_feed_byte.md R126: bytes are ignored in the terminal states. That FEED writes nothing at all there is the spec's
decision D23 (log entry 11); the row TERM_IGNORED as an instruction of its own is the model's choice (log entry 4). -/
def Obligations.FeedIsIgnoredInTerminalStates : Prop :=
  ∀ (s : State) (b : Byte), s.state = .success ∨ s.state = .failure →
    exec (.feed b) s = .next (ports s [] (some (.feed false)) []) ∧
    exec (.termIgnored b) s = .next (ports s [] (some (.feed false)) [])

/-- 41_feed_byte.md R127: the response of byte intake, and the two cases in which it is 1. -/
def Obligations.FeedAnswersWhetherAPacketIsReady : Prop :=
  ∀ (s t : State) (b : Byte), exec (.feed b) s = .next t →
    t.response = some (.feed (decide (t.state = .packetReady))) ∧
    (t.state = .packetReady ↔
      s.state = .packetReady ∨
      (s.state = .expectCrcLow ∧ ∃ p, HoldsPayload s p ∧ s.receivedCrc ||| b.setWidth 16 = crc16 p))

/-! ## TICK -/

/-- 42_tick.md R141: TICK is a no-op in the terminal states. That it does not even latch the time there is the spec's
decision D23 (log entry 11). -/
def Obligations.TickIsANoOpInTerminalStates : Prop :=
  ∀ (s : State) (now : Time), s.state = .success ∨ s.state = .failure →
    exec (.tick now) s = .next (ports s [] none [])

/-- 42_tick.md R142: the first TICK latches the time and, before any block, initiates the handshake. `time_valid` and the
first handshake are the spec's decision D6, `block_seen` is D8. -/
def Obligations.FirstTickInitiatesTheHandshake : Prop :=
  ∀ (s : State) (now : Time), s.state ≠ .success → s.state ≠ .failure → s.timeValid = false →
    exec (.tick now) s =
      .next (ports { s with timeValid := true, currentTime := now, lastActivityTime := now }
        (if s.state = .awaitHandshakeOrHeader ∧ s.blockSeen = false then [0x43#8] else []) none [])

/-- 42_tick.md R143: while a packet waits a TICK latches the time only (the spec's decision D25). -/
def Obligations.TickWhileAPacketWaitsLatchesTheTime : Prop :=
  ∀ (s : State) (now : Time), s.state = .packetReady → s.timeValid = true →
    exec (.tick now) s = .next (ports { s with currentTime := now } [] none [])

/-- 42_tick.md R144, R145, R148: no stall within the interval, and no error in excess. The modular difference, the strict
comparison and the one timer of both phases are the spec's decisions D22, D14 and D7. -/
def Obligations.TickWithinTheIntervalOnlyLatches : Prop :=
  ∀ (s : State) (now : Time), s.state ≠ .success → s.state ≠ .failure → s.state ≠ .packetReady →
    s.timeValid = true →
    (now - s.lastActivityTime).toNat ≤
      (if s.state = .awaitHandshakeOrHeader ∧ s.blockSeen = false then s.cfg.handshakeIntervalMs
       else s.cfg.retryIntervalMs) →
    s.errorCount.toNat ≤ s.cfg.maxErrors.val →
    exec (.tick now) s = .next (ports { s with currentTime := now } [] none [])

/-- 42_tick.md R146, R148: a stall is counted, the control byte of the phase goes out again and the timer restarts; the
state stays. The spec's decisions are D7 (the handshake counts), D9 (the byte between packets), D10 (the state stays),
D11 (the order), D14 and D22. -/
def Obligations.TickStallResendsTheControlByte : Prop :=
  ∀ (s : State) (now : Time), s.state ≠ .success → s.state ≠ .failure → s.state ≠ .packetReady →
    s.timeValid = true →
    (if s.state = .awaitHandshakeOrHeader ∧ s.blockSeen = false then s.cfg.handshakeIntervalMs
       else s.cfg.retryIntervalMs) < (now - s.lastActivityTime).toNat →
    (s.errorCount + 1#8).toNat ≤ s.cfg.maxErrors.val →
    exec (.tick now) s =
      .next (ports { s with currentTime := now, lastActivityTime := now, errorCount := s.errorCount + 1#8 }
        [if s.state = .awaitHandshakeOrHeader ∧ s.blockSeen = false then 0x43#8 else s.cfg.nackByte] none [.stall])

/-- 42_tick.md R147, R148: with more errors than `MAX_ERRORS`, counted before this TICK or by it, the Session fails and
emits nothing. The place of the test is the spec's decision D11. -/
def Obligations.TickBeyondMaxErrorsFails : Prop :=
  ∀ (s : State) (now : Time), s.state ≠ .success → s.state ≠ .failure → s.state ≠ .packetReady →
    s.timeValid = true →
    let interval := if s.state = .awaitHandshakeOrHeader ∧ s.blockSeen = false then s.cfg.handshakeIntervalMs
       else s.cfg.retryIntervalMs
    (interval < (now - s.lastActivityTime).toNat → s.cfg.maxErrors.val < (s.errorCount + 1#8).toNat →
      exec (.tick now) s =
        .next (ports { s with state := .failure, currentTime := now, errorCount := s.errorCount + 1#8 }
          [] none [.stall, .maxErrorsExceeded])) ∧
    ((now - s.lastActivityTime).toNat ≤ interval → s.cfg.maxErrors.val < s.errorCount.toNat →
      exec (.tick now) s =
        .next (ports { s with state := .failure, currentTime := now } [] none [.maxErrorsExceeded]))

/-! ## EXTRACT -/

/-- 43_extract_and_queries.md R162: with no packet ready EXTRACT reports that nothing is available. -/
def Obligations.ExtractWithoutAPacketChangesNothing : Prop :=
  ∀ s : State, s.state ≠ .packetReady → exec .extract s = .next (ports s [] (some .nothingAvailable) [])

/-- 43_extract_and_queries.md R160: a new block is delivered and acknowledged. The stamp is the spec's decision D12; the
hypothesis on the destination is the caller's duty of D21 and U3 (log entry 6). -/
def Obligations.ExtractDeliversANewBlock : Prop :=
  ∀ (s : State) (p : List Byte), s.state = .packetReady → s.isDuplicateBlock = false →
    s.packetSize.toNat ≤ s.destCapacity → HoldsPayload s p →
    exec .extract s =
      .next (ports { s with state := .awaitHandshakeOrHeader, expectedBlock := s.expectedBlock + 1#8,
                            errorCount := 0#8, lastActivityTime := s.currentTime }
        [0x06#8] (some (.delivered s.expectedBlock s.packetSize p)) [])

/-- 43_extract_and_queries.md R161: a duplicate is acknowledged and discarded. The spec's decisions are D15, D13, D12. -/
def Obligations.ExtractDiscardsADuplicate : Prop :=
  ∀ s : State, s.state = .packetReady → s.isDuplicateBlock = true →
    exec .extract s =
      .next (ports { s with state := .awaitHandshakeOrHeader, lastActivityTime := s.currentTime }
        [0x06#8] (some .nothingAvailable) [.duplicateBlock])

/-- 20_memory.md R56, the spec's decision D21 and 93_implementation_defined.md U3: a delivery to a destination that
cannot hold the payload is refused (log entry 6). -/
def Obligations.ExtractRefusesASmallDestination : Prop :=
  ∀ s : State, s.state = .packetReady → s.isDuplicateBlock = false → s.destCapacity < s.packetSize.toNat →
    exec .extract s = .refused (.destinationTooSmall s.destCapacity s.packetSize.toNat)

/-! ## Queries, emitted bytes and reserved codes -/

/-- 43_extract_and_queries.md R163: QSTATE answers the code of `state` and changes nothing. (The numbers of the codes are the
spec's decision D3, StateCodeRowsAnswerTheirCode.) -/
def Obligations.QstateAnswersTheStateCode : Prop :=
  ∀ s : State, exec .qstate s = .next (ports s [] (some (.stateCode s.state.code)) [])

/-- 43_extract_and_queries.md R164: QFIN answers whether the Session is finished and changes nothing. -/
def Obligations.QfinAnswersWhetherFinished : Prop :=
  ∀ s : State,
    exec .qfin s = .next (ports s [] (some (.finished (decide (s.state = .success ∨ s.state = .failure)))) [])

/-- 30_encoding.md R81 (the numbering is the spec's decision D3): the nine codes. A row of the table is QSTATE's answer in
its state; the row as an instruction is the model's reading of the table (log entry 7). -/
def Obligations.StateCodeRowsAnswerTheirCode : Prop :=
  ∀ (s : State) (row : Instr) (f : FsmState) (code : StateCode),
    (row, f, code) ∈
      [(.stateAwaitHandshakeOrHeader, .awaitHandshakeOrHeader, 0#4), (.stateExpectBlockNum, .expectBlockNum, 1#4),
       (.stateExpectBlockNumComplement, .expectBlockNumComplement, 2#4), (.stateReceivingData, .receivingData, 3#4),
       (.stateExpectCrcHigh, .expectCrcHigh, 4#4), (.stateExpectCrcLow, .expectCrcLow, 5#4),
       (.statePacketReady, .packetReady, 6#4), (.stateSuccess, .success, 7#4),
       ((.stateFailure : Instr), (.failure : FsmState), (8#4 : StateCode))] →
    f.code = code ∧
    (s.state = f → exec row s = .next (ports s [] (some (.stateCode code)) [])) ∧
    exec row s = exec .qstate s

/-- 30_encoding.md R71: the bytes the block emits. The emission as an instruction of its own is the model's reading of the
table (log entry 7). -/
def Obligations.EmittedByteRowsEmitTheirByte : Prop :=
  ∀ s : State,
    exec .ack s = .next (ports s [0x06#8] none []) ∧
    exec .nackByte s = .next (ports s [s.cfg.nackByte] none []) ∧
    exec .handshake s = .next (ports s [0x43#8] none [])

/-- 30_encoding.md R84 (the spec's decision D27): the reserved command codes are refused, whatever `arg` is. -/
def Obligations.ReservedCommandsAreRefused : Prop :=
  ∀ (s : State) (arg : BitVec 32),
    exec .reserved5 s = .refused (.reservedCommand 5#3) ∧
    exec .reserved6 s = .refused (.reservedCommand 6#3) ∧
    exec .reserved7 s = .refused (.reservedCommand 7#3) ∧
    step (s.present (.command (commandWord 5#3 arg))) = .refused (.reservedCommand 5#3) ∧
    step (s.present (.command (commandWord 6#3 arg))) = .refused (.reservedCommand 6#3) ∧
    step (s.present (.command (commandWord 7#3 arg))) = .refused (.reservedCommand 7#3)

/-! ## Rules of the whole machine -/

/-- 00_scope.md R12, 30_encoding.md R71: an instruction emits at most one byte, and no other value than these three. -/
def Obligations.AtMostOneControlByteIsEmitted : Prop :=
  ∀ (i : Instr) (s t : State), exec i s = .next t →
    t.tx = [] ∨ t.tx = [0x06#8] ∨ t.tx = [s.cfg.nackByte] ∨ t.tx = [0x43#8]

/-- 10_state.md R45, R36: the write matrix: what each of the five operations never writes. -/
def Obligations.OperationsKeepTheWriteMatrix : Prop :=
  ∀ s t : State,
    (∀ b : Byte, exec (.feed b) s = .next t →
      t.expectedBlock = s.expectedBlock ∧ t.currentTime = s.currentTime ∧ t.timeValid = s.timeValid ∧
      t.cfg = s.cfg ∧ t.input = s.input ∧ t.destCapacity = s.destCapacity) ∧
    (∀ now : Time, exec (.tick now) s = .next t →
      SameSession { s with state := t.state, lastActivityTime := t.lastActivityTime, errorCount := t.errorCount,
                           currentTime := t.currentTime, timeValid := t.timeValid } t ∧
      (t.state = s.state ∨ t.state = .failure) ∧ t.input = s.input ∧ t.destCapacity = s.destCapacity) ∧
    (exec .extract s = .next t →
      SameSession { s with state := t.state, expectedBlock := t.expectedBlock, lastActivityTime := t.lastActivityTime,
                           errorCount := t.errorCount } t ∧
      (t.state = s.state ∨ t.state = .awaitHandshakeOrHeader) ∧ t.input = s.input ∧
      t.destCapacity = s.destCapacity) ∧
    (exec .qstate s = .next t ∨ exec .qfin s = .next t →
      SameSession s t ∧ t.input = s.input ∧ t.destCapacity = s.destCapacity)

/-- 10_state.md R39: `expected_block` advances by one, modulo 256, exactly when EXTRACT delivers. -/
def Obligations.ExpectedBlockAdvancesOnlyOnDelivery : Prop :=
  ∀ (i : Instr) (s t : State), exec i s = .next t →
    (t.expectedBlock = s.expectedBlock ∧ ∀ n len p, t.response ≠ some (.delivered n len p)) ∨
    (t.expectedBlock = s.expectedBlock + 1#8 ∧ i = .extract ∧ s.state = .packetReady ∧
      s.isDuplicateBlock = false ∧ ∃ len p, t.response = some (.delivered s.expectedBlock len p))

/-- 10_state.md R43: the Session is created in its initial state; only byte intake, a TICK or an extraction changes it;
once terminal it changes no more until reset. That EXTRACT and the queries change nothing in a terminal state is the
spec's decision D23, where the document is silent (91_not_in_source.md N31); the reset input as the only exit is D28 and
log entry 16; `block_seen` and its reset value are D8; the rows of the input classes as instructions are log entry 4. -/
def Obligations.TerminalSessionsChangeOnlyByReset : Prop :=
  State.reset.state = .awaitHandshakeOrHeader ∧ State.reset.blockSeen = false ∧
  (∀ (i : Instr) (s t : State), exec i s = .next t →
    SameSession s t ∨ (∃ b, encode s.cfg.nackByte i = .wireIn8 b) ∨ (∃ b, i = .feed b) ∨ (∃ now, i = .tick now) ∨
      i = .extract) ∧
  (∀ s t : State, s.state = .success ∨ s.state = .failure → step s = .next t →
    SameSession s t ∨ ∃ rest, s.input = .reset :: rest)

/-- 70_reset_and_hazards.md R221, 20_memory.md R55: a waiting packet is left only by EXTRACT, and the buffer is not
written while it waits. -/
def Obligations.WaitingPacketIsLeftOnlyByExtract : Prop :=
  ∀ (i : Instr) (s t : State), s.state = .packetReady → exec i s = .next t →
    t.packetBuffer = s.packetBuffer ∧ t.packetSize = s.packetSize ∧
    ((i ≠ .extract ∧ t.state = .packetReady) ∨ (i = .extract ∧ t.state = .awaitHandshakeOrHeader ∧ t.tx = [0x06#8]))

/-- 20_memory.md R52: the buffer is written by payload bytes alone, one byte each, at `fill_position`. -/
def Obligations.BufferIsWrittenOnlyByPayloadBytes : Prop :=
  ∀ (i : Instr) (s t : State), exec i s = .next t →
    t.packetBuffer = s.packetBuffer ∨
    (s.state = .receivingData ∧ t.fillPosition = s.fillPosition + 1#11 ∧
      ∃ b : Byte, (i = .feed b ∨ encode s.cfg.nackByte i = .wireIn8 b) ∧
        t.packetBuffer.read s.fillPosition.toNat = .ok b ∧
        ∀ a : Nat, a ≠ s.fillPosition.toNat → t.packetBuffer.read a = s.packetBuffer.read a)

/-- 10_state.md R28, R33, R34: the flags change only where their rules say; `block_seen` and `time_valid` are never
cleared. They are the spec's decisions D8 and D6. -/
def Obligations.FlagsChangeOnlyByTheirRules : Prop :=
  ∀ (i : Instr) (s t : State), exec i s = .next t →
    (t.isDuplicateBlock = s.isDuplicateBlock ∨
      (s.state = .expectBlockNum ∧ t.state = .expectBlockNumComplement)) ∧
    (t.blockSeen = s.blockSeen ∨ (t.blockSeen = true ∧ s.state = .expectCrcLow ∧ t.state = .packetReady)) ∧
    (t.timeValid = s.timeValid ∨ (t.timeValid = true ∧ ∃ now, i = .tick now ∧ t.currentTime = now))

/-- 42_tick.md R149, 10_state.md R30, R40: what counts an error and what forgives. Byte intake is FEED or a row of the
input classes; a payload byte is one taken in RECEIVING_DATA. Every payload byte and every delivery forgives, a TICK or
a query never does. Which bytes forgive is the spec's decision D13; the rows as instructions are log entry 4. -/
def Obligations.ErrorCountFollowsItsEvents : Prop :=
  ∀ (i : Instr) (s t : State), exec i s = .next t →
    let byteIntake : Prop := ∃ b, i = .feed b ∨ encode s.cfg.nackByte i = .wireIn8 b
    let payloadByte : Prop := s.state = .receivingData ∧ byteIntake
    let delivery : Prop := i = .extract ∧ ∃ n len p, t.response = some (.delivered n len p)
    (t.errorCount = s.errorCount ∧ ¬ payloadByte ∧ ¬ delivery ∧
      Event.stall ∉ t.events ∧ Event.crcMismatch ∉ t.events) ∨
    (t.errorCount = 0#8 ∧ (payloadByte ∨ delivery)) ∨
    (t.errorCount = s.errorCount + 1#8 ∧
      ((s.state = .expectCrcLow ∧ byteIntake ∧ t.state = .awaitHandshakeOrHeader ∧ t.events = [.crcMismatch] ∧
          t.tx = [s.cfg.nackByte] ∧ t.receivedCrc ≠ t.computedCrc) ∨
       ((∃ now, i = .tick now) ∧ s.active = true ∧ Event.stall ∈ t.events)))

/-- 60_exceptions.md R185, 42_tick.md R147: FAILURE is entered by a TICK with more errors than `MAX_ERRORS`, by nothing
else, and by every such TICK; nothing is emitted by that TICK, nor by any operation ever after. The place of the test is
the spec's decision D11. -/
def Obligations.FailureIsEnteredOnlyByExcessErrors : Prop :=
  (∀ (i : Instr) (s t : State), s.state ≠ .failure → exec i s = .next t →
    (t.state = .failure ↔ Event.maxErrorsExceeded ∈ t.events) ∧
    (t.state = .failure → (∃ now, i = .tick now) ∧ t.cfg.maxErrors.val < t.errorCount.toNat ∧ t.tx = [])) ∧
  (∀ (s t : State) (now : Time), s.active = true → s.timeValid = true → exec (.tick now) s = .next t →
    t.cfg.maxErrors.val < t.errorCount.toNat → t.state = .failure) ∧
  (∀ (s : State) (op : Instr), s.state = .failure →
    ((∃ b, op = .feed b) ∨ (∃ now, op = .tick now) ∨ op = .extract ∨ op = .qstate ∨ op = .qfin) →
    ∃ t, exec op s = .next t ∧ t.state = .failure ∧ t.tx = [])

/-- The headline: every step keeps the invariant of the Session (10_state.md R37, R38, R41, R42, 20_memory.md R54), from
every state that has it. -/
def Obligations.EveryStepKeepsTheInvariant : Prop :=
  ∀ s t : State, Inv s → step s = .next t → Inv t

/-- The reset state has the invariant. -/
def Obligations.ResetHasTheInvariant : Prop := Inv State.reset

/-- 60_exceptions.md R180, 41_feed_byte.md R128, 30_encoding.md R77: from a state with the invariant no step faults, every
operation completes, and only a destination that is too small is refused (log entry 6). -/
def Obligations.EveryOperationCompletes : Prop :=
  ∀ s : State, Inv s →
    Safe s ∧
    (∀ b : Byte, ∃ t, exec (.feed b) s = .next t) ∧
    (∀ now : Time, ∃ t, exec (.tick now) s = .next t) ∧
    (s.packetSize.toNat ≤ s.destCapacity → ∃ t, exec .extract s = .next t) ∧
    (∃ t, exec .qstate s = .next t) ∧ (∃ t, exec .qfin s = .next t)

/-! ## The CRC engine -/

/-- 40_crc16.md R100 and R101: the update is eight conditional shifts of the register into whose high end the byte
entered, and the CRC of a list is the left fold from 0x0000. -/
def Obligations.CrcIsTheFoldOfItsUpdate : Prop :=
  (∀ (c : Crc) (b : Byte),
    crc16Update c b =
      Nat.iterate (fun x : Crc => if x.msb then (x <<< 1) ^^^ 0x1021#16 else x <<< 1) 8 (c ^^^ (b ++ 0x00#8))) ∧
  crc16 [] = 0x0000#16 ∧
  (∀ (bytes : List Byte) (b : Byte), crc16 (bytes ++ [b]) = crc16Update (crc16 bytes) b)

/-- 40_crc16.md R103: the update is linear over exclusive or. -/
def Obligations.CrcUpdateIsLinear : Prop :=
  ∀ (a b : Crc) (x y : Byte), crc16Update (a ^^^ b) (x ^^^ y) = crc16Update a x ^^^ crc16Update b y

/-- 40_crc16.md R103: a payload followed by its own CRC, high byte first, has CRC zero. -/
def Obligations.PayloadWithItsCrcFoldsToZero : Prop :=
  ∀ p : List Byte, crc16 (p ++ [(crc16 p).extractLsb' 8 8, (crc16 p).extractLsb' 0 8]) = 0x0000#16

/-- 40_crc16.md R103: changing exactly one byte of a payload changes its CRC. -/
def Obligations.SingleByteChangeChangesTheCrc : Prop :=
  ∀ (before after : List Byte) (b c : Byte), b ≠ c → crc16 (before ++ b :: after) ≠ crc16 (before ++ c :: after)

/-! ## Traces -/

/-- 43_extract_and_queries.md R165 (a), for one packet from any Session in the header wait: its bytes and an EXTRACT
deliver its payload under the next number, with exactly one ACK. The hypothesis on the destination is log entry 6. -/
def Obligations.WellFormedPacketIsDelivered : Prop :=
  ∀ (s : State) (p : List Byte), s.state = .awaitHandshakeOrHeader →
    p.length = 128 ∨ p.length = 1024 → p.length ≤ s.destCapacity →
    let trace := packetInputs (s.expectedBlock + 1#8) p ++ [extractInput]
    emittedBy trace s = [0x06#8] ∧
    ∃ t, runInputs trace s = .next t ∧ t.state = .awaitHandshakeOrHeader ∧ t.expectedBlock = s.expectedBlock + 1#8 ∧
      t.response = some (.delivered s.expectedBlock (BitVec.ofNat 11 p.length) p)

/-- 43_extract_and_queries.md R165 (b) and (c): a copy of the packet before its extraction is ignored; a copy after it is
acknowledged and not delivered. (c) rests on the spec's decision D15, the destination on log entry 6. -/
def Obligations.RepeatedPacketIsDeliveredOnce : Prop :=
  ∀ (s : State) (p : List Byte), s.state = .awaitHandshakeOrHeader →
    p.length = 128 ∨ p.length = 1024 → p.length ≤ s.destCapacity →
    let packet := packetInputs (s.expectedBlock + 1#8) p
    emittedBy (packet ++ packet ++ [extractInput]) s = [0x06#8] ∧
    ∃ t, runInputs (packet ++ packet ++ [extractInput]) s = .next t ∧
      t.response = some (.delivered s.expectedBlock (BitVec.ofNat 11 p.length) p) ∧
      t.expectedBlock = s.expectedBlock + 1#8 ∧
      emittedBy (packet ++ [extractInput]) t = [0x06#8] ∧
      ∃ u, runInputs (packet ++ [extractInput]) t = .next u ∧ u.response = some .nothingAvailable ∧
        u.expectedBlock = s.expectedBlock + 1#8

/-- 41_feed_byte.md R123 over a whole frame: a frame whose CRC field is not its payload's is answered with one NACK byte
and counted once, and the Session waits for a header, the number it expects unchanged. That the count stands at 1
rests on the spec's decision D13, that FEED does not fail the Session on D11. -/
def Obligations.CorruptedPacketIsNacked : Prop :=
  ∀ (s : State) (p : List Byte) (c : Crc), s.state = .awaitHandshakeOrHeader →
    p.length = 128 ∨ p.length = 1024 → c ≠ crc16 p →
    emittedBy (frameInputs (s.expectedBlock + 1#8) p c) s = [s.cfg.nackByte] ∧
    ∃ t, runInputs (frameInputs (s.expectedBlock + 1#8) p c) s = .next t ∧ t.state = .awaitHandshakeOrHeader ∧
      t.expectedBlock = s.expectedBlock ∧ t.errorCount = 1#8 ∧ t.response = some (.feed false)

/-- 42_tick.md R147, R148, R150: `MAX_ERRORS + 1` stalls in a row, each TICK more than the interval after the one before,
end an active Session in FAILURE after `MAX_ERRORS` control bytes. The spec's decisions are D7, D9, D11, D14 and D22. -/
def Obligations.StallsEndInFailure : Prop :=
  ∀ (s : State) (times : List Time), s.active = true → s.timeValid = true → s.errorCount = 0#8 →
    times.length = s.cfg.maxErrors.val + 1 →
    List.IsChain (fun a b : Time => s.interval < (b - a).toNat) (s.lastActivityTime :: times) →
    emittedBy (times.map tickInput) s = List.replicate s.cfg.maxErrors.val s.stallByte ∧
    ∃ t, runInputs (times.map tickInput) s = .next t ∧ t.state = .failure ∧
      t.errorCount.toNat = s.cfg.maxErrors.val + 1
end

