-- ==== Sys2Proof/Laws/Config.lean ====
section
/-! SUPPORT. The parameters that 00_scope.md R7 fixes: their values, and that every configuration has them, so that the
constants the machine uses are the fields of the Session's own configuration. -/

namespace Sys2Proof

open Sys2Proof.Machine

/-! ### The values -/

@[simp] theorem Config.reference_bufCap : Config.reference.bufCap = 1024 := rfl
@[simp] theorem Config.reference_sizeStd : Config.reference.sizeStd = 128#11 := rfl
@[simp] theorem Config.reference_sizeExt : Config.reference.sizeExt = 1024#11 := rfl
@[simp] theorem Config.reference_hdrStd : Config.reference.hdrStd = 0x01#8 := rfl
@[simp] theorem Config.reference_hdrExt : Config.reference.hdrExt = 0x02#8 := rfl
@[simp] theorem Config.reference_eot : Config.reference.eot = 0x04#8 := rfl
@[simp] theorem Config.reference_ack : Config.reference.ack = 0x06#8 := rfl
@[simp] theorem Config.reference_handshake : Config.reference.handshake = 0x43#8 := rfl
@[simp] theorem Config.reference_crcPoly : Config.reference.crcPoly = 0x1021#16 := rfl
@[simp] theorem Config.reference_crcSeed : Config.reference.crcSeed = 0x0000#16 := rfl
@[simp] theorem Config.reference_wTime : Config.reference.wTime = 32 := rfl

theorem Machine.crcPoly_eq : crcPoly = 0x1021#16 := rfl
theorem Machine.crcSeed_eq : crcSeed = 0x0000#16 := rfl

/-! ### Every configuration has them -/

theorem Config.bufCap_eq (c : Config) : c.bufCap = Machine.bufCap := c.fixed.1
theorem Config.sizeStd_eq (c : Config) : c.sizeStd = Sys2Proof.sizeStd := c.fixed.2.1
theorem Config.sizeExt_eq (c : Config) : c.sizeExt = Sys2Proof.sizeExt := c.fixed.2.2.1
theorem Config.hdrStd_eq (c : Config) : c.hdrStd = Sys2Proof.hdrStd := c.fixed.2.2.2.1
theorem Config.hdrExt_eq (c : Config) : c.hdrExt = Sys2Proof.hdrExt := c.fixed.2.2.2.2.1
theorem Config.eot_eq (c : Config) : c.eot = eotByte := c.fixed.2.2.2.2.2.1
theorem Config.ack_eq (c : Config) : c.ack = ackByte := c.fixed.2.2.2.2.2.2.1
theorem Config.handshake_eq (c : Config) : c.handshake = handshakeByte := c.fixed.2.2.2.2.2.2.2.1
theorem Config.crcPoly_eq (c : Config) : c.crcPoly = Machine.crcPoly := c.fixed.2.2.2.2.2.2.2.2.1
theorem Config.crcSeed_eq (c : Config) : c.crcSeed = Machine.crcSeed := c.fixed.2.2.2.2.2.2.2.2.2.1
theorem Config.wTime_eq (c : Config) : c.wTime = 32 := c.fixed.2.2.2.2.2.2.2.2.2.2

/-- Time differences are taken modulo 2 to the power `W_TIME` (42_tick.md R144). -/
theorem Machine.State.elapsed_toNat (s : State) (now : Time) :
    (s.elapsed now).toNat = (now.toNat + (2 ^ s.cfg.wTime - s.lastActivityTime.toNat)) % 2 ^ s.cfg.wTime := by
  rw [s.cfg.wTime_eq, State.elapsed, BitVec.toNat_sub]
  congr 1
  omega

end Sys2Proof
end

