-- ==== Sys2Proof/Laws/Crc.lean ====
section
/-! SUPPORT. The CRC engine: its equations and the bijectivity of a shift. -/

namespace Sys2Proof.Machine

open Sys2Proof

@[simp] theorem crcShifts_zero (c : Crc) : crcShifts 0 c = c := rfl

@[simp] theorem crcShifts_succ (n : Nat) (c : Crc) : crcShifts (n + 1) c = crcShifts n (crcShift c) := rfl

@[simp] theorem crc16_nil : crc16 [] = crcSeed := rfl

/-- The fold takes one more byte at the end (40_crc16.md R101). -/
theorem crc16_append_singleton (bytes : List Byte) (b : Byte) :
    crc16 (bytes ++ [b]) = crc16Update (crc16 bytes) b := by
  simp [crc16, List.foldl_append]

/-- A shift undone: bit 0 tells whether the polynomial was folded in. -/
def crcUnshift (c : Crc) : Crc :=
  if c.getLsbD 0 then ((c ^^^ crcPoly) >>> 1) ||| 0x8000#16 else c >>> 1

/-- A shift is injective (40_crc16.md R103). -/
theorem crcUnshift_crcShift (c : Crc) : crcUnshift (crcShift c) = c := by
  unfold crcShift crcUnshift
  rw [crcPoly_eq]
  by_cases h : c.getLsbD 15 = true
  · rw [if_pos h, if_pos (by simp)]
    apply BitVec.eq_of_getLsbD_eq
    intro i hi
    have : i = 15 ∨ i < 15 := by omega
    rcases this with rfl | hlt
    · simp [h]
    · rw [BitVec.xor_assoc, BitVec.xor_self, BitVec.xor_zero]
      have h8 : BitVec.getLsbD 0x8000#16 i = false := by
        have : ∀ j, j < 15 → BitVec.getLsbD 0x8000#16 j = false := by decide
        exact this i hlt
      simp only [BitVec.getLsbD_or, h8, Bool.or_false, BitVec.getLsbD_ushiftRight, BitVec.getLsbD_shiftLeft]
      simp; omega
  · rw [if_neg h, if_neg (by simp)]
    apply BitVec.eq_of_getLsbD_eq
    intro i hi
    have : i = 15 ∨ i < 15 := by omega
    rcases this with rfl | hlt
    · simpa using h
    · simp; omega

end Sys2Proof.Machine
end

