-- ==== Sys2Proof/Laws/Decode.lean ====
section
/-! SUPPORT. The fields of a command word and the header bytes. -/

namespace Sys2Proof

@[simp] theorem opField_commandWord (op : BitVec 3) (arg : BitVec 32) : opField (commandWord op arg) = op := by
  apply BitVec.eq_of_getLsbD_eq
  intro i hi
  have h : ¬ 32 + i < 32 := by omega
  simp only [opField, commandWord, BitVec.getLsbD_extractLsb', BitVec.getLsbD_append, hi, h]
  simp [hi]

@[simp] theorem argField_commandWord (op : BitVec 3) (arg : BitVec 32) : argField (commandWord op arg) = arg := by
  apply BitVec.eq_of_getLsbD_eq
  intro i hi
  simp only [argField, commandWord, BitVec.getLsbD_extractLsb', BitVec.getLsbD_append]
  simp [hi]

/-- The two header rows' bytes are the header markers (30_encoding.md R72). -/
theorem headerByte_isHeader : ∀ h : BitVec 2, h = 1#2 ∨ h = 2#2 →
    isHeader (headerByte h) = true ∧ (headerByte h).setWidth 2 = h := by decide

theorem isHeader_headerByte_setWidth : ∀ b : Byte, isHeader b = true →
    headerByte (b.setWidth 2) = b ∧ (b.setWidth 2 = 1#2 ∨ b.setWidth 2 = 2#2) := by decide

theorem isHeader_iff (b : Byte) : isHeader b = true ↔ b = hdrStd ∨ b = hdrExt := by
  simp [isHeader]

@[simp] theorem sizeOfHeader_std : sizeOfHeader hdrStd = sizeStd := rfl

@[simp] theorem sizeOfHeader_ext : sizeOfHeader hdrExt = sizeExt := by decide

theorem sizeOfHeader_legal (b : Byte) : sizeOfHeader b = 128#11 ∨ sizeOfHeader b = 1024#11 := by
  unfold sizeOfHeader
  split
  · exact .inl rfl
  · exact .inr rfl

end Sys2Proof
end

