-- ==== Sys2Proof/Laws/Memory.lean ====
section
/-! SUPPORT. The laws of the packet buffer: reads after writes, the canonical form, and reading a range. -/

namespace Sys2Proof.Machine

open Sys2Proof

/-! ### Reading after writing -/

@[simp] theorem Memory.find_nil (i : Nat) : Memory.find [] i = none := rfl

@[simp] theorem Memory.find_put_same (m : Memory) (i : Nat) (b : Byte) : (m.put i b).find i = some b := by
  induction m with
  | nil => simp [Memory.put, Memory.find]
  | cons cell rest ih =>
    obtain ⟨k, v⟩ := cell
    simp only [Memory.put]
    split
    · simp [Memory.find]
    · split
      · simp [Memory.find]
      · next _ hne => simp [Memory.find, Ne.symm hne, ih]

theorem Memory.find_put_other (m : Memory) {i j : Nat} (b : Byte) (h : j ≠ i) : (m.put i b).find j = m.find j := by
  induction m with
  | nil => simp [Memory.put, Memory.find, Ne.symm h]
  | cons cell rest ih =>
    obtain ⟨k, v⟩ := cell
    simp only [Memory.put]
    split
    · simp [Memory.find, Ne.symm h]
    · split
      · next _ heq => subst heq; simp [Memory.find, Ne.symm h]
      · simp [Memory.find, ih]

theorem Memory.write_of_lt (m : Memory) {i : Nat} (b : Byte) (h : i < bufCap) : m.write i b = .ok (m.put i b) :=
  if_pos h

/-- Everything a write can do. -/
theorem Memory.write_cases (m : Memory) (i : Nat) (b : Byte) :
    (i < bufCap ∧ m.write i b = .ok (m.put i b)) ∨
    (bufCap ≤ i ∧ m.write i b = .error (.bufferIndexOutOfRange i)) := by
  by_cases h : i < bufCap
  · exact .inl ⟨h, if_pos h⟩
  · exact .inr ⟨Nat.le_of_not_lt h, if_neg h⟩

/-- Everything a read can do. -/
theorem Memory.read_cases (m : Memory) (i : Nat) :
    (∃ b, i < bufCap ∧ m.find i = some b ∧ m.read i = .ok b) ∨
    (i < bufCap ∧ m.find i = none ∧ m.read i = .error (.bufferByteUnwritten i)) ∨
    (bufCap ≤ i ∧ m.read i = .error (.bufferIndexOutOfRange i)) := by
  unfold Memory.read
  by_cases h : i < bufCap
  · cases hf : m.find i with
    | none => exact .inr (.inl ⟨h, rfl, by simp [h]⟩)
    | some b => exact .inl ⟨b, h, rfl, by simp [h]⟩
  · exact .inr (.inr ⟨Nat.le_of_not_lt h, by simp [h]⟩)

theorem Memory.read_ok_iff (m : Memory) (i : Nat) (b : Byte) :
    m.read i = .ok b ↔ i < bufCap ∧ m.find i = some b := by
  rcases m.read_cases i with ⟨c, h, hf, hr⟩ | ⟨h, hf, hr⟩ | ⟨h, hr⟩
  · simp [hr, hf, h]
  · simp [hr, hf]
  · simp [hr, Nat.not_lt.mpr h]

theorem Memory.read_put_same (m : Memory) {i : Nat} (b : Byte) (h : i < bufCap) : (m.put i b).read i = .ok b :=
  (Memory.read_ok_iff _ _ _).mpr ⟨h, Memory.find_put_same m i b⟩

theorem Memory.read_put_other (m : Memory) {i j : Nat} (b : Byte) (h : j ≠ i) : (m.put i b).read j = m.read j := by
  simp [Memory.read, Memory.find_put_other m b h]

/-! ### The canonical form -/

theorem Memory.risesFrom_put (m : Memory) {low i : Nat} (b : Byte) (hm : m.risesFrom low = true) (hi : low ≤ i) :
    (m.put i b).risesFrom low = true := by
  induction m generalizing low with
  | nil => simp [Memory.put, Memory.risesFrom, hi]
  | cons cell rest ih =>
    obtain ⟨k, v⟩ := cell
    simp only [Memory.risesFrom, Bool.and_eq_true, decide_eq_true_eq] at hm
    simp only [Memory.put]
    split
    · next h => simp [Memory.risesFrom, hi, hm.2, h]
    · split
      · next _ h => subst h; simp [Memory.risesFrom, hm]
      · next h1 h2 => simp [Memory.risesFrom, hm.1, ih hm.2 (by omega)]

theorem Memory.all_put (m : Memory) {i : Nat} (b : Byte) (hm : m.all (fun cell => decide (cell.1 < bufCap)) = true)
    (hi : i < bufCap) : (m.put i b).all (fun cell => decide (cell.1 < bufCap)) = true := by
  induction m with
  | nil => simp [Memory.put, hi]
  | cons cell rest ih =>
    obtain ⟨k, v⟩ := cell
    simp only [List.all_cons, Bool.and_eq_true, decide_eq_true_eq] at hm
    simp only [Memory.put]
    split
    · simp only [List.all_cons, Bool.and_eq_true, decide_eq_true_eq]; exact ⟨hi, hm⟩
    · split
      · simp only [List.all_cons, Bool.and_eq_true, decide_eq_true_eq]; exact ⟨hi, hm.2⟩
      · simp only [List.all_cons, Bool.and_eq_true, decide_eq_true_eq]; exact ⟨hm.1, ih hm.2⟩

/-- A write keeps the canonical form. -/
theorem Memory.wf_put (m : Memory) {i : Nat} (b : Byte) (hm : m.wf = true) (hi : i < bufCap) :
    (m.put i b).wf = true := by
  simp only [Memory.wf, Bool.and_eq_true] at hm ⊢
  exact ⟨Memory.risesFrom_put m b hm.1 (Nat.zero_le _), Memory.all_put m b hm.2 hi⟩

/-- A write that answers keeps the canonical form. -/
theorem Memory.write_wf {m m' : Memory} {i : Nat} {b : Byte} (hm : m.wf = true) (h : m.write i b = .ok m') :
    m'.wf = true := by
  rcases m.write_cases i b with ⟨hi, hw⟩ | ⟨_, hw⟩
  · rw [hw] at h; cases h; exact Memory.wf_put m b hm hi
  · rw [hw] at h; cases h

theorem Memory.find_none_of_risesFrom (m : Memory) {low i : Nat} (hm : m.risesFrom low = true) (hi : i < low) :
    m.find i = none := by
  induction m generalizing low with
  | nil => rfl
  | cons cell rest ih =>
    obtain ⟨k, v⟩ := cell
    simp only [Memory.risesFrom, Bool.and_eq_true, decide_eq_true_eq] at hm
    have hk : k ≠ i := by omega
    simp [Memory.find, hk, ih hm.2 (by omega)]

/-- Canonical buffers that hold the same bytes are the same list. -/
theorem Memory.ext_of_risesFrom {m m' : Memory} {low : Nat} (h : m.risesFrom low = true)
    (h' : m'.risesFrom low = true) (same : ∀ i, m.find i = m'.find i) : m = m' := by
  induction m generalizing m' low with
  | nil =>
    cases m' with
    | nil => rfl
    | cons cell rest => simpa [Memory.find] using same cell.1
  | cons cell rest ih =>
    obtain ⟨k, v⟩ := cell
    cases m' with
    | nil => simpa [Memory.find] using same k
    | cons cell' rest' =>
      obtain ⟨k', v'⟩ := cell'
      simp only [Memory.risesFrom, Bool.and_eq_true, decide_eq_true_eq] at h h'
      have hk : k = k' := by
        rcases Nat.lt_trichotomy k k' with hlt | heq | hgt
        · have := same k
          simp [Memory.find, Nat.ne_of_gt hlt, Memory.find_none_of_risesFrom rest' h'.2 (by omega : k < k' + 1)] at this
        · exact heq
        · have := same k'
          simp [Memory.find, Nat.ne_of_gt hgt, Memory.find_none_of_risesFrom rest h.2 (by omega : k' < k + 1)] at this
      subst hk
      have hv : v = v' := by simpa [Memory.find] using same k
      subst hv
      have hrest : rest = rest' := by
        refine ih h.2 h'.2 fun i => ?_
        by_cases hi : k = i
        · subst hi
          rw [Memory.find_none_of_risesFrom rest h.2 (Nat.lt_succ_self k),
            Memory.find_none_of_risesFrom rest' h'.2 (Nat.lt_succ_self k)]
        · simpa [Memory.find, hi] using same i
      rw [hrest]

/-! ### Reading a range -/

/-- Reading a range answers exactly the list of its bytes. -/
theorem Memory.readRange_ok_iff (m : Memory) (start count : Nat) (bs : List Byte) :
    m.readRange start count = .ok bs ↔
      bs.length = count ∧ ∀ k (h : k < bs.length), m.read (start + k) = .ok bs[k] := by
  induction count generalizing start bs with
  | zero =>
    constructor
    · intro h
      cases h
      exact ⟨rfl, fun k h => absurd h (Nat.not_lt_zero k)⟩
    · rintro ⟨h, -⟩
      rw [List.length_eq_zero_iff.mp h]
      rfl
  | succ n ih =>
    simp only [Memory.readRange]
    cases bs with
    | nil =>
      cases h1 : m.read start with
      | error f => simp
      | ok b => cases h2 : m.readRange (start + 1) n <;> simp
    | cons c cs =>
      have key : (∀ k (h : k < (c :: cs).length), m.read (start + k) = .ok (c :: cs)[k]) ↔
          m.read start = .ok c ∧ ∀ k (h : k < cs.length), m.read (start + 1 + k) = .ok cs[k] := by
        constructor
        · intro h
          refine ⟨h 0 (Nat.zero_lt_succ _), fun k hk => ?_⟩
          have := h (k + 1) (by simpa using hk)
          rw [Nat.add_assoc, Nat.add_comm 1 k]
          simpa using this
        · rintro ⟨h0, hs⟩ k hk
          cases k with
          | zero => exact h0
          | succ k =>
            have := hs k (Nat.lt_of_succ_lt_succ hk)
            rw [Nat.add_assoc, Nat.add_comm 1 k] at this
            exact this
      rw [key, List.length_cons, Nat.succ_inj]
      cases h1 : m.read start with
      | error f => simp
      | ok b =>
        cases h2 : m.readRange (start + 1) n with
        | error f =>
          simp only [reduceCtorEq, false_iff, Except.ok.injEq]
          rintro ⟨hl, -, hk⟩
          have := (ih (start + 1) cs).mpr ⟨hl, hk⟩
          rw [h2] at this
          cases this
        | ok ds =>
          have := ih (start + 1) cs
          rw [h2] at this
          simp only [Except.ok.injEq, List.cons.injEq] at this ⊢
          rw [this]
          tauto

theorem Memory.readRange_length {m : Memory} {start count : Nat} {bs : List Byte}
    (h : m.readRange start count = .ok bs) : bs.length = count :=
  ((Memory.readRange_ok_iff m start count bs).mp h).1

/-- A range all of whose bytes can be read can be read. -/
theorem Memory.readRange_of_readable (m : Memory) (start count : Nat)
    (h : ∀ k, k < count → ∃ b, m.read (start + k) = .ok b) : ∃ bs, m.readRange start count = .ok bs := by
  induction count generalizing start with
  | zero => exact ⟨[], rfl⟩
  | succ n ih =>
    obtain ⟨b, hb⟩ := h 0 (Nat.succ_pos n)
    obtain ⟨bs, hbs⟩ := ih (start + 1) fun k hk => by
      have := h (k + 1) (by omega)
      rwa [Nat.add_assoc, Nat.add_comm 1 k]
    exact ⟨b :: bs, by simp [Memory.readRange, hbs, show m.read start = .ok b from hb]⟩

/-- A write outside a range leaves what the range reads. -/
theorem Memory.readRange_put_outside (m : Memory) {start count i : Nat} (b : Byte)
    (h : i < start ∨ start + count ≤ i) : (m.put i b).readRange start count = m.readRange start count := by
  induction count generalizing start with
  | zero => rfl
  | succ n ih =>
    have h0 : (m.put i b).read start = m.read start := Memory.read_put_other m b (by omega)
    have hs : (m.put i b).readRange (start + 1) n = m.readRange (start + 1) n := ih (by omega)
    simp [Memory.readRange, h0, hs]

end Sys2Proof.Machine
end

