-- ==== Sys2Proof/Laws/State.lean ====
section
/-! SUPPORT. One lemma per field of State and named update: what the update leaves in the field. -/

namespace Sys2Proof.Machine

open Sys2Proof

/-! ### clearPorts -/

@[simp] theorem State.clearPorts_state (s : State) : (s.clearPorts).state = s.state := rfl
@[simp] theorem State.clearPorts_expectedBlock (s : State) : (s.clearPorts).expectedBlock = s.expectedBlock := rfl
@[simp] theorem State.clearPorts_packetBuffer (s : State) : (s.clearPorts).packetBuffer = s.packetBuffer := rfl
@[simp] theorem State.clearPorts_packetSize (s : State) : (s.clearPorts).packetSize = s.packetSize := rfl
@[simp] theorem State.clearPorts_fillPosition (s : State) : (s.clearPorts).fillPosition = s.fillPosition := rfl
@[simp] theorem State.clearPorts_receivedCrc (s : State) : (s.clearPorts).receivedCrc = s.receivedCrc := rfl
@[simp] theorem State.clearPorts_computedCrc (s : State) : (s.clearPorts).computedCrc = s.computedCrc := rfl
@[simp] theorem State.clearPorts_isDuplicateBlock (s : State) : (s.clearPorts).isDuplicateBlock = s.isDuplicateBlock := rfl
@[simp] theorem State.clearPorts_lastActivityTime (s : State) : (s.clearPorts).lastActivityTime = s.lastActivityTime := rfl
@[simp] theorem State.clearPorts_errorCount (s : State) : (s.clearPorts).errorCount = s.errorCount := rfl
@[simp] theorem State.clearPorts_currentTime (s : State) : (s.clearPorts).currentTime = s.currentTime := rfl
@[simp] theorem State.clearPorts_blockSeen (s : State) : (s.clearPorts).blockSeen = s.blockSeen := rfl
@[simp] theorem State.clearPorts_timeValid (s : State) : (s.clearPorts).timeValid = s.timeValid := rfl
@[simp] theorem State.clearPorts_cfg (s : State) : (s.clearPorts).cfg = s.cfg := rfl
@[simp] theorem State.clearPorts_input (s : State) : (s.clearPorts).input = s.input := rfl
@[simp] theorem State.clearPorts_destCapacity (s : State) : (s.clearPorts).destCapacity = s.destCapacity := rfl
@[simp] theorem State.clearPorts_tx (s : State) : (s.clearPorts).tx = [] := rfl
@[simp] theorem State.clearPorts_response (s : State) : (s.clearPorts).response = none := rfl
@[simp] theorem State.clearPorts_events (s : State) : (s.clearPorts).events = [] := rfl

/-! ### emit -/

@[simp] theorem State.emit_state (s : State) (b : Byte) : (s.emit b).state = s.state := rfl
@[simp] theorem State.emit_expectedBlock (s : State) (b : Byte) : (s.emit b).expectedBlock = s.expectedBlock := rfl
@[simp] theorem State.emit_packetBuffer (s : State) (b : Byte) : (s.emit b).packetBuffer = s.packetBuffer := rfl
@[simp] theorem State.emit_packetSize (s : State) (b : Byte) : (s.emit b).packetSize = s.packetSize := rfl
@[simp] theorem State.emit_fillPosition (s : State) (b : Byte) : (s.emit b).fillPosition = s.fillPosition := rfl
@[simp] theorem State.emit_receivedCrc (s : State) (b : Byte) : (s.emit b).receivedCrc = s.receivedCrc := rfl
@[simp] theorem State.emit_computedCrc (s : State) (b : Byte) : (s.emit b).computedCrc = s.computedCrc := rfl
@[simp] theorem State.emit_isDuplicateBlock (s : State) (b : Byte) : (s.emit b).isDuplicateBlock = s.isDuplicateBlock := rfl
@[simp] theorem State.emit_lastActivityTime (s : State) (b : Byte) : (s.emit b).lastActivityTime = s.lastActivityTime := rfl
@[simp] theorem State.emit_errorCount (s : State) (b : Byte) : (s.emit b).errorCount = s.errorCount := rfl
@[simp] theorem State.emit_currentTime (s : State) (b : Byte) : (s.emit b).currentTime = s.currentTime := rfl
@[simp] theorem State.emit_blockSeen (s : State) (b : Byte) : (s.emit b).blockSeen = s.blockSeen := rfl
@[simp] theorem State.emit_timeValid (s : State) (b : Byte) : (s.emit b).timeValid = s.timeValid := rfl
@[simp] theorem State.emit_cfg (s : State) (b : Byte) : (s.emit b).cfg = s.cfg := rfl
@[simp] theorem State.emit_input (s : State) (b : Byte) : (s.emit b).input = s.input := rfl
@[simp] theorem State.emit_destCapacity (s : State) (b : Byte) : (s.emit b).destCapacity = s.destCapacity := rfl
@[simp] theorem State.emit_tx (s : State) (b : Byte) : (s.emit b).tx = s.tx ++ [b] := rfl
@[simp] theorem State.emit_response (s : State) (b : Byte) : (s.emit b).response = s.response := rfl
@[simp] theorem State.emit_events (s : State) (b : Byte) : (s.emit b).events = s.events := rfl

/-! ### answer -/

@[simp] theorem State.answer_state (s : State) (r : Response) : (s.answer r).state = s.state := rfl
@[simp] theorem State.answer_expectedBlock (s : State) (r : Response) : (s.answer r).expectedBlock = s.expectedBlock := rfl
@[simp] theorem State.answer_packetBuffer (s : State) (r : Response) : (s.answer r).packetBuffer = s.packetBuffer := rfl
@[simp] theorem State.answer_packetSize (s : State) (r : Response) : (s.answer r).packetSize = s.packetSize := rfl
@[simp] theorem State.answer_fillPosition (s : State) (r : Response) : (s.answer r).fillPosition = s.fillPosition := rfl
@[simp] theorem State.answer_receivedCrc (s : State) (r : Response) : (s.answer r).receivedCrc = s.receivedCrc := rfl
@[simp] theorem State.answer_computedCrc (s : State) (r : Response) : (s.answer r).computedCrc = s.computedCrc := rfl
@[simp] theorem State.answer_isDuplicateBlock (s : State) (r : Response) : (s.answer r).isDuplicateBlock = s.isDuplicateBlock := rfl
@[simp] theorem State.answer_lastActivityTime (s : State) (r : Response) : (s.answer r).lastActivityTime = s.lastActivityTime := rfl
@[simp] theorem State.answer_errorCount (s : State) (r : Response) : (s.answer r).errorCount = s.errorCount := rfl
@[simp] theorem State.answer_currentTime (s : State) (r : Response) : (s.answer r).currentTime = s.currentTime := rfl
@[simp] theorem State.answer_blockSeen (s : State) (r : Response) : (s.answer r).blockSeen = s.blockSeen := rfl
@[simp] theorem State.answer_timeValid (s : State) (r : Response) : (s.answer r).timeValid = s.timeValid := rfl
@[simp] theorem State.answer_cfg (s : State) (r : Response) : (s.answer r).cfg = s.cfg := rfl
@[simp] theorem State.answer_input (s : State) (r : Response) : (s.answer r).input = s.input := rfl
@[simp] theorem State.answer_destCapacity (s : State) (r : Response) : (s.answer r).destCapacity = s.destCapacity := rfl
@[simp] theorem State.answer_tx (s : State) (r : Response) : (s.answer r).tx = s.tx := rfl
@[simp] theorem State.answer_response (s : State) (r : Response) : (s.answer r).response = some r := rfl
@[simp] theorem State.answer_events (s : State) (r : Response) : (s.answer r).events = s.events := rfl

/-! ### goto -/

@[simp] theorem State.goto_state (s : State) (n : FsmState) : (s.goto n).state = n := rfl
@[simp] theorem State.goto_expectedBlock (s : State) (n : FsmState) : (s.goto n).expectedBlock = s.expectedBlock := rfl
@[simp] theorem State.goto_packetBuffer (s : State) (n : FsmState) : (s.goto n).packetBuffer = s.packetBuffer := rfl
@[simp] theorem State.goto_packetSize (s : State) (n : FsmState) : (s.goto n).packetSize = s.packetSize := rfl
@[simp] theorem State.goto_fillPosition (s : State) (n : FsmState) : (s.goto n).fillPosition = s.fillPosition := rfl
@[simp] theorem State.goto_receivedCrc (s : State) (n : FsmState) : (s.goto n).receivedCrc = s.receivedCrc := rfl
@[simp] theorem State.goto_computedCrc (s : State) (n : FsmState) : (s.goto n).computedCrc = s.computedCrc := rfl
@[simp] theorem State.goto_isDuplicateBlock (s : State) (n : FsmState) : (s.goto n).isDuplicateBlock = s.isDuplicateBlock := rfl
@[simp] theorem State.goto_lastActivityTime (s : State) (n : FsmState) : (s.goto n).lastActivityTime = s.lastActivityTime := rfl
@[simp] theorem State.goto_errorCount (s : State) (n : FsmState) : (s.goto n).errorCount = s.errorCount := rfl
@[simp] theorem State.goto_currentTime (s : State) (n : FsmState) : (s.goto n).currentTime = s.currentTime := rfl
@[simp] theorem State.goto_blockSeen (s : State) (n : FsmState) : (s.goto n).blockSeen = s.blockSeen := rfl
@[simp] theorem State.goto_timeValid (s : State) (n : FsmState) : (s.goto n).timeValid = s.timeValid := rfl
@[simp] theorem State.goto_cfg (s : State) (n : FsmState) : (s.goto n).cfg = s.cfg := rfl
@[simp] theorem State.goto_input (s : State) (n : FsmState) : (s.goto n).input = s.input := rfl
@[simp] theorem State.goto_destCapacity (s : State) (n : FsmState) : (s.goto n).destCapacity = s.destCapacity := rfl
@[simp] theorem State.goto_tx (s : State) (n : FsmState) : (s.goto n).tx = s.tx := rfl
@[simp] theorem State.goto_response (s : State) (n : FsmState) : (s.goto n).response = s.response := rfl
@[simp] theorem State.goto_events (s : State) (n : FsmState) : (s.goto n).events = s.events := rfl

/-! ### stamp -/

@[simp] theorem State.stamp_state (s : State) : (s.stamp).state = s.state := rfl
@[simp] theorem State.stamp_expectedBlock (s : State) : (s.stamp).expectedBlock = s.expectedBlock := rfl
@[simp] theorem State.stamp_packetBuffer (s : State) : (s.stamp).packetBuffer = s.packetBuffer := rfl
@[simp] theorem State.stamp_packetSize (s : State) : (s.stamp).packetSize = s.packetSize := rfl
@[simp] theorem State.stamp_fillPosition (s : State) : (s.stamp).fillPosition = s.fillPosition := rfl
@[simp] theorem State.stamp_receivedCrc (s : State) : (s.stamp).receivedCrc = s.receivedCrc := rfl
@[simp] theorem State.stamp_computedCrc (s : State) : (s.stamp).computedCrc = s.computedCrc := rfl
@[simp] theorem State.stamp_isDuplicateBlock (s : State) : (s.stamp).isDuplicateBlock = s.isDuplicateBlock := rfl
@[simp] theorem State.stamp_lastActivityTime (s : State) : (s.stamp).lastActivityTime = s.currentTime := rfl
@[simp] theorem State.stamp_errorCount (s : State) : (s.stamp).errorCount = s.errorCount := rfl
@[simp] theorem State.stamp_currentTime (s : State) : (s.stamp).currentTime = s.currentTime := rfl
@[simp] theorem State.stamp_blockSeen (s : State) : (s.stamp).blockSeen = s.blockSeen := rfl
@[simp] theorem State.stamp_timeValid (s : State) : (s.stamp).timeValid = s.timeValid := rfl
@[simp] theorem State.stamp_cfg (s : State) : (s.stamp).cfg = s.cfg := rfl
@[simp] theorem State.stamp_input (s : State) : (s.stamp).input = s.input := rfl
@[simp] theorem State.stamp_destCapacity (s : State) : (s.stamp).destCapacity = s.destCapacity := rfl
@[simp] theorem State.stamp_tx (s : State) : (s.stamp).tx = s.tx := rfl
@[simp] theorem State.stamp_response (s : State) : (s.stamp).response = s.response := rfl
@[simp] theorem State.stamp_events (s : State) : (s.stamp).events = s.events := rfl

/-! ### latchTime -/

@[simp] theorem State.latchTime_state (s : State) (now : Time) : (s.latchTime now).state = s.state := rfl
@[simp] theorem State.latchTime_expectedBlock (s : State) (now : Time) : (s.latchTime now).expectedBlock = s.expectedBlock := rfl
@[simp] theorem State.latchTime_packetBuffer (s : State) (now : Time) : (s.latchTime now).packetBuffer = s.packetBuffer := rfl
@[simp] theorem State.latchTime_packetSize (s : State) (now : Time) : (s.latchTime now).packetSize = s.packetSize := rfl
@[simp] theorem State.latchTime_fillPosition (s : State) (now : Time) : (s.latchTime now).fillPosition = s.fillPosition := rfl
@[simp] theorem State.latchTime_receivedCrc (s : State) (now : Time) : (s.latchTime now).receivedCrc = s.receivedCrc := rfl
@[simp] theorem State.latchTime_computedCrc (s : State) (now : Time) : (s.latchTime now).computedCrc = s.computedCrc := rfl
@[simp] theorem State.latchTime_isDuplicateBlock (s : State) (now : Time) : (s.latchTime now).isDuplicateBlock = s.isDuplicateBlock := rfl
@[simp] theorem State.latchTime_lastActivityTime (s : State) (now : Time) : (s.latchTime now).lastActivityTime = s.lastActivityTime := rfl
@[simp] theorem State.latchTime_errorCount (s : State) (now : Time) : (s.latchTime now).errorCount = s.errorCount := rfl
@[simp] theorem State.latchTime_currentTime (s : State) (now : Time) : (s.latchTime now).currentTime = now := rfl
@[simp] theorem State.latchTime_blockSeen (s : State) (now : Time) : (s.latchTime now).blockSeen = s.blockSeen := rfl
@[simp] theorem State.latchTime_timeValid (s : State) (now : Time) : (s.latchTime now).timeValid = s.timeValid := rfl
@[simp] theorem State.latchTime_cfg (s : State) (now : Time) : (s.latchTime now).cfg = s.cfg := rfl
@[simp] theorem State.latchTime_input (s : State) (now : Time) : (s.latchTime now).input = s.input := rfl
@[simp] theorem State.latchTime_destCapacity (s : State) (now : Time) : (s.latchTime now).destCapacity = s.destCapacity := rfl
@[simp] theorem State.latchTime_tx (s : State) (now : Time) : (s.latchTime now).tx = s.tx := rfl
@[simp] theorem State.latchTime_response (s : State) (now : Time) : (s.latchTime now).response = s.response := rfl
@[simp] theorem State.latchTime_events (s : State) (now : Time) : (s.latchTime now).events = s.events := rfl

/-! ### acceptHeader -/

@[simp] theorem State.acceptHeader_state (s : State) (b : Byte) : (s.acceptHeader b).state = s.state := rfl
@[simp] theorem State.acceptHeader_expectedBlock (s : State) (b : Byte) : (s.acceptHeader b).expectedBlock = s.expectedBlock := rfl
@[simp] theorem State.acceptHeader_packetBuffer (s : State) (b : Byte) : (s.acceptHeader b).packetBuffer = s.packetBuffer := rfl
@[simp] theorem State.acceptHeader_packetSize (s : State) (b : Byte) : (s.acceptHeader b).packetSize = sizeOfHeader b := rfl
@[simp] theorem State.acceptHeader_fillPosition (s : State) (b : Byte) : (s.acceptHeader b).fillPosition = 0#11 := rfl
@[simp] theorem State.acceptHeader_receivedCrc (s : State) (b : Byte) : (s.acceptHeader b).receivedCrc = s.receivedCrc := rfl
@[simp] theorem State.acceptHeader_computedCrc (s : State) (b : Byte) : (s.acceptHeader b).computedCrc = s.computedCrc := rfl
@[simp] theorem State.acceptHeader_isDuplicateBlock (s : State) (b : Byte) : (s.acceptHeader b).isDuplicateBlock = s.isDuplicateBlock := rfl
@[simp] theorem State.acceptHeader_lastActivityTime (s : State) (b : Byte) : (s.acceptHeader b).lastActivityTime = s.lastActivityTime := rfl
@[simp] theorem State.acceptHeader_errorCount (s : State) (b : Byte) : (s.acceptHeader b).errorCount = s.errorCount := rfl
@[simp] theorem State.acceptHeader_currentTime (s : State) (b : Byte) : (s.acceptHeader b).currentTime = s.currentTime := rfl
@[simp] theorem State.acceptHeader_blockSeen (s : State) (b : Byte) : (s.acceptHeader b).blockSeen = s.blockSeen := rfl
@[simp] theorem State.acceptHeader_timeValid (s : State) (b : Byte) : (s.acceptHeader b).timeValid = s.timeValid := rfl
@[simp] theorem State.acceptHeader_cfg (s : State) (b : Byte) : (s.acceptHeader b).cfg = s.cfg := rfl
@[simp] theorem State.acceptHeader_input (s : State) (b : Byte) : (s.acceptHeader b).input = s.input := rfl
@[simp] theorem State.acceptHeader_destCapacity (s : State) (b : Byte) : (s.acceptHeader b).destCapacity = s.destCapacity := rfl
@[simp] theorem State.acceptHeader_tx (s : State) (b : Byte) : (s.acceptHeader b).tx = s.tx := rfl
@[simp] theorem State.acceptHeader_response (s : State) (b : Byte) : (s.acceptHeader b).response = s.response := rfl
@[simp] theorem State.acceptHeader_events (s : State) (b : Byte) : (s.acceptHeader b).events = s.events := rfl

/-! ### countError -/

@[simp] theorem State.countError_state (s : State) : (s.countError).state = s.state := rfl
@[simp] theorem State.countError_expectedBlock (s : State) : (s.countError).expectedBlock = s.expectedBlock := rfl
@[simp] theorem State.countError_packetBuffer (s : State) : (s.countError).packetBuffer = s.packetBuffer := rfl
@[simp] theorem State.countError_packetSize (s : State) : (s.countError).packetSize = s.packetSize := rfl
@[simp] theorem State.countError_fillPosition (s : State) : (s.countError).fillPosition = s.fillPosition := rfl
@[simp] theorem State.countError_receivedCrc (s : State) : (s.countError).receivedCrc = s.receivedCrc := rfl
@[simp] theorem State.countError_computedCrc (s : State) : (s.countError).computedCrc = s.computedCrc := rfl
@[simp] theorem State.countError_isDuplicateBlock (s : State) : (s.countError).isDuplicateBlock = s.isDuplicateBlock := rfl
@[simp] theorem State.countError_lastActivityTime (s : State) : (s.countError).lastActivityTime = s.lastActivityTime := rfl
@[simp] theorem State.countError_errorCount (s : State) : (s.countError).errorCount = s.errorCount + 1#8 := rfl
@[simp] theorem State.countError_currentTime (s : State) : (s.countError).currentTime = s.currentTime := rfl
@[simp] theorem State.countError_blockSeen (s : State) : (s.countError).blockSeen = s.blockSeen := rfl
@[simp] theorem State.countError_timeValid (s : State) : (s.countError).timeValid = s.timeValid := rfl
@[simp] theorem State.countError_cfg (s : State) : (s.countError).cfg = s.cfg := rfl
@[simp] theorem State.countError_input (s : State) : (s.countError).input = s.input := rfl
@[simp] theorem State.countError_destCapacity (s : State) : (s.countError).destCapacity = s.destCapacity := rfl
@[simp] theorem State.countError_tx (s : State) : (s.countError).tx = s.tx := rfl
@[simp] theorem State.countError_response (s : State) : (s.countError).response = s.response := rfl
@[simp] theorem State.countError_events (s : State) : (s.countError).events = s.events := rfl

/-! ### noteEvent -/

@[simp] theorem State.noteEvent_state (s : State) (e : Event) : (s.noteEvent e).state = s.state := rfl
@[simp] theorem State.noteEvent_expectedBlock (s : State) (e : Event) : (s.noteEvent e).expectedBlock = s.expectedBlock := rfl
@[simp] theorem State.noteEvent_packetBuffer (s : State) (e : Event) : (s.noteEvent e).packetBuffer = s.packetBuffer := rfl
@[simp] theorem State.noteEvent_packetSize (s : State) (e : Event) : (s.noteEvent e).packetSize = s.packetSize := rfl
@[simp] theorem State.noteEvent_fillPosition (s : State) (e : Event) : (s.noteEvent e).fillPosition = s.fillPosition := rfl
@[simp] theorem State.noteEvent_receivedCrc (s : State) (e : Event) : (s.noteEvent e).receivedCrc = s.receivedCrc := rfl
@[simp] theorem State.noteEvent_computedCrc (s : State) (e : Event) : (s.noteEvent e).computedCrc = s.computedCrc := rfl
@[simp] theorem State.noteEvent_isDuplicateBlock (s : State) (e : Event) : (s.noteEvent e).isDuplicateBlock = s.isDuplicateBlock := rfl
@[simp] theorem State.noteEvent_lastActivityTime (s : State) (e : Event) : (s.noteEvent e).lastActivityTime = s.lastActivityTime := rfl
@[simp] theorem State.noteEvent_errorCount (s : State) (e : Event) : (s.noteEvent e).errorCount = s.errorCount := rfl
@[simp] theorem State.noteEvent_currentTime (s : State) (e : Event) : (s.noteEvent e).currentTime = s.currentTime := rfl
@[simp] theorem State.noteEvent_blockSeen (s : State) (e : Event) : (s.noteEvent e).blockSeen = s.blockSeen := rfl
@[simp] theorem State.noteEvent_timeValid (s : State) (e : Event) : (s.noteEvent e).timeValid = s.timeValid := rfl
@[simp] theorem State.noteEvent_cfg (s : State) (e : Event) : (s.noteEvent e).cfg = s.cfg := rfl
@[simp] theorem State.noteEvent_input (s : State) (e : Event) : (s.noteEvent e).input = s.input := rfl
@[simp] theorem State.noteEvent_destCapacity (s : State) (e : Event) : (s.noteEvent e).destCapacity = s.destCapacity := rfl
@[simp] theorem State.noteEvent_tx (s : State) (e : Event) : (s.noteEvent e).tx = s.tx := rfl
@[simp] theorem State.noteEvent_response (s : State) (e : Event) : (s.noteEvent e).response = s.response := rfl
@[simp] theorem State.noteEvent_events (s : State) (e : Event) : (s.noteEvent e).events = s.events ++ [e] := rfl

/-! ### consumed -/

@[simp] theorem State.consumed_state (s : State) (rest : List Input) : (s.consumed rest).state = s.state := rfl
@[simp] theorem State.consumed_expectedBlock (s : State) (rest : List Input) : (s.consumed rest).expectedBlock = s.expectedBlock := rfl
@[simp] theorem State.consumed_packetBuffer (s : State) (rest : List Input) : (s.consumed rest).packetBuffer = s.packetBuffer := rfl
@[simp] theorem State.consumed_packetSize (s : State) (rest : List Input) : (s.consumed rest).packetSize = s.packetSize := rfl
@[simp] theorem State.consumed_fillPosition (s : State) (rest : List Input) : (s.consumed rest).fillPosition = s.fillPosition := rfl
@[simp] theorem State.consumed_receivedCrc (s : State) (rest : List Input) : (s.consumed rest).receivedCrc = s.receivedCrc := rfl
@[simp] theorem State.consumed_computedCrc (s : State) (rest : List Input) : (s.consumed rest).computedCrc = s.computedCrc := rfl
@[simp] theorem State.consumed_isDuplicateBlock (s : State) (rest : List Input) : (s.consumed rest).isDuplicateBlock = s.isDuplicateBlock := rfl
@[simp] theorem State.consumed_lastActivityTime (s : State) (rest : List Input) : (s.consumed rest).lastActivityTime = s.lastActivityTime := rfl
@[simp] theorem State.consumed_errorCount (s : State) (rest : List Input) : (s.consumed rest).errorCount = s.errorCount := rfl
@[simp] theorem State.consumed_currentTime (s : State) (rest : List Input) : (s.consumed rest).currentTime = s.currentTime := rfl
@[simp] theorem State.consumed_blockSeen (s : State) (rest : List Input) : (s.consumed rest).blockSeen = s.blockSeen := rfl
@[simp] theorem State.consumed_timeValid (s : State) (rest : List Input) : (s.consumed rest).timeValid = s.timeValid := rfl
@[simp] theorem State.consumed_cfg (s : State) (rest : List Input) : (s.consumed rest).cfg = s.cfg := rfl
@[simp] theorem State.consumed_input (s : State) (rest : List Input) : (s.consumed rest).input = rest := rfl
@[simp] theorem State.consumed_destCapacity (s : State) (rest : List Input) : (s.consumed rest).destCapacity = s.destCapacity := rfl
@[simp] theorem State.consumed_tx (s : State) (rest : List Input) : (s.consumed rest).tx = s.tx := rfl
@[simp] theorem State.consumed_response (s : State) (rest : List Input) : (s.consumed rest).response = s.response := rfl
@[simp] theorem State.consumed_events (s : State) (rest : List Input) : (s.consumed rest).events = s.events := rfl

/-! ### present -/

@[simp] theorem State.present_state (s : State) (i : Input) : (s.present i).state = s.state := rfl
@[simp] theorem State.present_expectedBlock (s : State) (i : Input) : (s.present i).expectedBlock = s.expectedBlock := rfl
@[simp] theorem State.present_packetBuffer (s : State) (i : Input) : (s.present i).packetBuffer = s.packetBuffer := rfl
@[simp] theorem State.present_packetSize (s : State) (i : Input) : (s.present i).packetSize = s.packetSize := rfl
@[simp] theorem State.present_fillPosition (s : State) (i : Input) : (s.present i).fillPosition = s.fillPosition := rfl
@[simp] theorem State.present_receivedCrc (s : State) (i : Input) : (s.present i).receivedCrc = s.receivedCrc := rfl
@[simp] theorem State.present_computedCrc (s : State) (i : Input) : (s.present i).computedCrc = s.computedCrc := rfl
@[simp] theorem State.present_isDuplicateBlock (s : State) (i : Input) : (s.present i).isDuplicateBlock = s.isDuplicateBlock := rfl
@[simp] theorem State.present_lastActivityTime (s : State) (i : Input) : (s.present i).lastActivityTime = s.lastActivityTime := rfl
@[simp] theorem State.present_errorCount (s : State) (i : Input) : (s.present i).errorCount = s.errorCount := rfl
@[simp] theorem State.present_currentTime (s : State) (i : Input) : (s.present i).currentTime = s.currentTime := rfl
@[simp] theorem State.present_blockSeen (s : State) (i : Input) : (s.present i).blockSeen = s.blockSeen := rfl
@[simp] theorem State.present_timeValid (s : State) (i : Input) : (s.present i).timeValid = s.timeValid := rfl
@[simp] theorem State.present_cfg (s : State) (i : Input) : (s.present i).cfg = s.cfg := rfl
@[simp] theorem State.present_input (s : State) (i : Input) : (s.present i).input = i :: s.input := rfl
@[simp] theorem State.present_destCapacity (s : State) (i : Input) : (s.present i).destCapacity = s.destCapacity := rfl
@[simp] theorem State.present_tx (s : State) (i : Input) : (s.present i).tx = s.tx := rfl
@[simp] theorem State.present_response (s : State) (i : Input) : (s.present i).response = s.response := rfl
@[simp] theorem State.present_events (s : State) (i : Input) : (s.present i).events = s.events := rfl

end Sys2Proof.Machine
end

