-- ==== Sys2Proof/Laws/Ops.lean ====
section
/-! SUPPORT. The shared operations: taking an event row by row, the reset of the Session, the buffered payload, and the
derived values under the port updates. -/

namespace Sys2Proof.Machine

open Sys2Proof

/-! ### Taking an event (60_exceptions.md R187), one equation per row -/

@[simp] theorem State.takeEvent_framingDesync (s : State) (n : FsmState) :
    s.takeEvent .framingDesync n = (s.noteEvent .framingDesync).goto n := rfl

@[simp] theorem State.takeEvent_crcMismatch (s : State) (n : FsmState) :
    s.takeEvent .crcMismatch n =
      (((s.noteEvent .crcMismatch).emit s.cfg.nackByte).countError).goto n := rfl

@[simp] theorem State.takeEvent_duplicateBlock (s : State) (n : FsmState) :
    s.takeEvent .duplicateBlock n = (s.noteEvent .duplicateBlock).goto n := rfl

@[simp] theorem State.takeEvent_stall (s : State) (n : FsmState) :
    s.takeEvent .stall n = ((s.noteEvent .stall).countError).goto n := rfl

@[simp] theorem State.takeEvent_maxErrorsExceeded (s : State) (n : FsmState) :
    s.takeEvent .maxErrorsExceeded n = (s.noteEvent .maxErrorsExceeded).goto n := rfl

@[simp] theorem State.takeEvent_endOfTransmission (s : State) (n : FsmState) :
    s.takeEvent .endOfTransmission n =
      ((s.noteEvent .endOfTransmission).emit ackByte).goto n := rfl

/-- What no event changes: every register but `state` and `error_count`, and the ports but `tx` and `events`. -/
theorem State.takeEvent_frame (s : State) (e : Event) (n : FsmState) :
    ∃ ec tx, s.takeEvent e n =
      { s with state := n, errorCount := ec, tx := tx, events := s.events ++ [e] } := by
  cases e <;> exact ⟨_, _, rfl⟩

/-! ### Reset -/

@[simp] theorem State.resetSession_cfg (s : State) : s.resetSession.cfg = s.cfg := rfl
@[simp] theorem State.resetSession_input (s : State) : s.resetSession.input = s.input := rfl
@[simp] theorem State.resetSession_destCapacity (s : State) : s.resetSession.destCapacity = s.destCapacity := rfl

/-! ### The payload -/

/-- The payload is the buffer's bytes at indices 0 to `packet_size - 1`. -/
theorem State.payload_ok_iff (s : State) (p : List Byte) :
    s.payload = .ok p ↔
      p.length = s.packetSize.toNat ∧ ∀ k (h : k < p.length), s.packetBuffer.read k = .ok p[k] := by
  simpa [State.payload] using Memory.readRange_ok_iff s.packetBuffer 0 s.packetSize.toNat p

theorem State.payload_length {s : State} {p : List Byte} (h : s.payload = .ok p) : p.length = s.packetSize.toNat :=
  Memory.readRange_length h

/-- The payload depends on the buffer and `packet_size` alone. -/
theorem State.payload_congr {s t : State} (hb : t.packetBuffer = s.packetBuffer) (hs : t.packetSize = s.packetSize) :
    t.payload = s.payload := by
  simp [State.payload, hb, hs]

@[simp] theorem State.clearPorts_payload (s : State) : s.clearPorts.payload = s.payload := rfl
@[simp] theorem State.consumed_payload (s : State) (rest : List Input) : (s.consumed rest).payload = s.payload := rfl
@[simp] theorem State.answer_payload (s : State) (r : Response) : (s.answer r).payload = s.payload := rfl

theorem State.payloadCrc_of_ok {s : State} {p : List Byte} (h : s.payload = .ok p) : s.payloadCrc = some (crc16 p) := by
  simp [State.payloadCrc, h]

theorem State.payloadCrc_eq_some {s : State} {c : Crc} (h : s.payloadCrc = some c) :
    ∃ p, s.payload = .ok p ∧ crc16 p = c := by
  unfold State.payloadCrc at h
  cases hp : s.payload with
  | error f => simp [hp] at h
  | ok p => exact ⟨p, rfl, by simpa [hp] using h⟩

end Sys2Proof.Machine
end

