-- ==== Sys2Proof/Laws/Extract.lean ====
section
/-! SUPPORT. EXTRACT, said once: what it can answer with (43_extract_and_queries.md R160 to R162). -/

namespace Sys2Proof.Machine

open Sys2Proof

/-- What EXTRACT does in `s` when it answers a next state. -/
inductive ExtractArm (s : State) : State → Prop where
  | nothing (hs : s.state ≠ .packetReady) : ExtractArm s (s.answer .nothingAvailable)
  | deliver (p : List Byte) (hs : s.state = .packetReady) (hd : s.isDuplicateBlock = false)
      (hc : s.packetSize.toNat ≤ s.destCapacity) (hp : s.payload = .ok p) : ExtractArm s (s.delivered p)
  | discard (hs : s.state = .packetReady) (hd : s.isDuplicateBlock = true) : ExtractArm s s.discardDuplicate

/-- Everything EXTRACT can answer with a next state. -/
theorem State.extractArms_next {s t : State} (h : s.extractArms = .next t) : ExtractArm s t := by
  unfold State.extractArms at h
  split at h
  · next hs => cases h; exact .nothing (by simpa [State.packetReady] using hs)
  · next hs =>
    have hs : s.state = .packetReady := by simpa [State.packetReady] using hs
    split at h
    · next hd =>
      unfold State.deliver at h
      split at h
      · cases h
      · next hc =>
        cases hp : s.payload with
        | error f => rw [hp] at h; cases h
        | ok p => rw [hp] at h; cases h; exact .deliver p hs (by simpa using hd) (by omega) hp
    · next hd => cases h; exact .discard hs (by simpa using hd)

/-- The arm whose conditions hold is the one EXTRACT takes. -/
theorem ExtractArm.extractArms_eq {s t : State} (h : ExtractArm s t) : s.extractArms = .next t := by
  unfold State.extractArms
  cases h with
  | nothing hs => simp [State.packetReady, hs]
  | deliver p hs hd hc hp => simp [State.packetReady, hs, hd, State.deliver, Nat.not_lt.mpr hc, hp]
  | discard hs hd => simp [State.packetReady, hs, hd]

/-- EXTRACT refuses only a destination that is too small (93_implementation_defined.md U3). -/
theorem State.extractArms_refused {s : State} {r : Refusal} (h : s.extractArms = .refused r) :
    s.state = .packetReady ∧ s.isDuplicateBlock = false ∧ s.destCapacity < s.packetSize.toNat ∧
      r = .destinationTooSmall s.destCapacity s.packetSize.toNat := by
  unfold State.extractArms at h
  split at h
  · cases h
  · next hs =>
    split at h
    · next hd =>
      unfold State.deliver at h
      split at h
      · next hc =>
        cases h
        exact ⟨by simpa [State.packetReady] using hs, by simpa using hd, hc, rfl⟩
      · cases hp : s.payload <;> rw [hp] at h <;> cases h
    · cases h

/-- EXTRACT faults only where a payload byte cannot be read. -/
theorem State.extractArms_fault {s : State} {f : Fault} (h : s.extractArms = .fault f) :
    s.state = .packetReady ∧ s.isDuplicateBlock = false ∧ s.payload = .error f := by
  unfold State.extractArms at h
  split at h
  · cases h
  · next hs =>
    split at h
    · next hd =>
      unfold State.deliver at h
      split at h
      · cases h
      · cases hp : s.payload with
        | error g => rw [hp] at h; cases h; exact ⟨by simpa [State.packetReady] using hs, by simpa using hd, rfl⟩
        | ok p => rw [hp] at h; cases h
    · cases h

end Sys2Proof.Machine
end

