-- ==== Sys2Proof/Laws/Feed.lean ====
section
/-! SUPPORT. Byte intake, said once: the arms a FEED can take (41_feed_byte.md R111 to R126) and the inversion of the
dispatch. -/

namespace Sys2Proof.Machine

open Sys2Proof

/-- The arm that FEED of `b` takes in `s`, and the state it leaves (before the response is added). -/
inductive FeedArm (s : State) (b : Byte) : State → Prop where
  | awHeader (hs : s.state = .awaitHandshakeOrHeader) (hb : isHeader b = true) : FeedArm s b (s.feedAwHeader b)
  | awEot (hs : s.state = .awaitHandshakeOrHeader) (hb : b = eotByte) : FeedArm s b s.feedAwEot
  | awNoise (hs : s.state = .awaitHandshakeOrHeader) (hb : isHeader b = false) (he : b ≠ eotByte) :
      FeedArm s b s.feedAwNoise
  | bnNext (hs : s.state = .expectBlockNum) (hb : b = s.candidate) : FeedArm s b s.feedBnNext
  | bnDup (hs : s.state = .expectBlockNum) (hn : b ≠ s.candidate) (hb : b = s.expectedBlock) :
      FeedArm s b s.feedBnDup
  | bnHeader (hs : s.state = .expectBlockNum) (hn : b ≠ s.candidate) (hd : b ≠ s.expectedBlock)
      (hb : isHeader b = true) : FeedArm s b (s.feedBnHeader b)
  | bnOther (hs : s.state = .expectBlockNum) (hn : b ≠ s.candidate) (hd : b ≠ s.expectedBlock)
      (hb : isHeader b = false) : FeedArm s b s.feedBnOther
  | bcMatch (hs : s.state = .expectBlockNumComplement) (hb : b = s.requiredComplement) : FeedArm s b s.feedBcMatch
  | bcHeader (hs : s.state = .expectBlockNumComplement) (hn : b ≠ s.requiredComplement) (hb : isHeader b = true) :
      FeedArm s b (s.feedBcHeader b)
  | bcOther (hs : s.state = .expectBlockNumComplement) (hn : b ≠ s.requiredComplement) (hb : isHeader b = false) :
      FeedArm s b s.feedBcOther
  | data (hs : s.state = .receivingData) (hi : s.fillPosition.toNat < bufCap) :
      FeedArm s b (s.dataStored (s.packetBuffer.put s.fillPosition.toNat b))
  | crcHigh (hs : s.state = .expectCrcHigh) : FeedArm s b (s.feedCrcHigh b)
  | crcBad (p : List Byte) (hs : s.state = .expectCrcLow) (hp : s.payload = .ok p)
      (hc : s.receivedCrc ||| b.setWidth 16 ≠ crc16 p) : FeedArm s b (s.crcLatched b p).crcMismatch
  | crcOk (p : List Byte) (hs : s.state = .expectCrcLow) (hp : s.payload = .ok p)
      (hc : s.receivedCrc ||| b.setWidth 16 = crc16 p) : FeedArm s b (s.crcLatched b p).crcMatch
  | ignored (hs : s.state = .packetReady ∨ s.state = .success ∨ s.state = .failure) : FeedArm s b s

@[simp] theorem State.crcLatched_receivedCrc (s : State) (b : Byte) (p : List Byte) :
    (s.crcLatched b p).receivedCrc = s.receivedCrc ||| b.setWidth 16 := rfl

@[simp] theorem State.crcLatched_computedCrc (s : State) (b : Byte) (p : List Byte) :
    (s.crcLatched b p).computedCrc = crc16 p := rfl

/-- What storing a payload byte leaves (41_feed_byte.md R121). -/
theorem State.dataStored_eq (s : State) (m : Memory) :
    s.dataStored m =
      { s with state := if s.fillPosition + 1#11 = s.packetSize then .expectCrcHigh else s.state
               packetBuffer := m
               fillPosition := s.fillPosition + 1#11
               errorCount := 0#8
               lastActivityTime := s.currentTime } := by
  by_cases h : s.fillPosition + 1#11 = s.packetSize
  · rw [if_pos h]; exact if_pos h
  · rw [if_neg h]; exact if_neg h

theorem State.feedCrcLow_of_ok {s : State} {p : List Byte} (hp : s.payload = .ok p) (b : Byte) :
    s.feedCrcLow b = if s.receivedCrc ||| b.setWidth 16 = crc16 p then .next (s.crcLatched b p).crcMatch
      else .next (s.crcLatched b p).crcMismatch := by
  unfold State.feedCrcLow
  rw [hp]
  rfl

theorem State.feedCrcLow_of_error {s : State} {f : Fault} (hp : s.payload = .error f) (b : Byte) :
    s.feedCrcLow b = .fault f := by
  unfold State.feedCrcLow
  rw [hp]

theorem not_isHeader_eot : isHeader eotByte = false := by decide

/-- Everything the dispatch of R110 can answer with a next state. -/
theorem State.feedArms_next {s t : State} {b : Byte} (h : s.feedArms b = .next t) : FeedArm s b t := by
  unfold State.feedArms at h
  split at h
  · next hs =>
    split at h
    · next hb => cases h; exact .awHeader hs hb
    · next hb =>
      split at h
      · next he => cases h; exact .awEot hs he
      · next he => cases h; exact .awNoise hs (by simpa using hb) he
  · next hs =>
    split at h
    · next hb => cases h; exact .bnNext hs hb
    · next hn =>
      split at h
      · next hd => cases h; exact .bnDup hs hn hd
      · next hd =>
        split at h
        · next hb => cases h; exact .bnHeader hs hn hd hb
        · next hb => cases h; exact .bnOther hs hn hd (by simpa using hb)
  · next hs =>
    split at h
    · next hb => cases h; exact .bcMatch hs hb
    · next hn =>
      split at h
      · next hb => cases h; exact .bcHeader hs hn hb
      · next hb => cases h; exact .bcOther hs hn (by simpa using hb)
  · next hs =>
    unfold State.feedData at h
    rcases s.packetBuffer.write_cases s.fillPosition.toNat b with ⟨hi, hw⟩ | ⟨hi, hw⟩
    · rw [hw] at h; cases h; exact .data hs hi
    · rw [hw] at h; cases h
  · next hs => cases h; exact .crcHigh hs
  · next hs =>
    cases hp : s.payload with
    | error f => rw [State.feedCrcLow_of_error hp] at h; cases h
    | ok p =>
      rw [State.feedCrcLow_of_ok hp] at h
      split at h
      · next hc => cases h; exact .crcOk p hs hp hc
      · next hc => cases h; exact .crcBad p hs hp hc
  · next hs => cases h; exact .ignored (.inl hs)
  · next hs => cases h; exact .ignored (.inr (.inl hs))
  · next hs => cases h; exact .ignored (.inr (.inr hs))

/-- Every arm whose conditions hold is the one the dispatch of R110 takes. -/
theorem FeedArm.feedArms_eq {s t : State} {b : Byte} (h : FeedArm s b t) : s.feedArms b = .next t := by
  cases h with
  | awHeader hs hb => simp only [State.feedArms, hs, hb, if_true]
  | awEot hs hb => subst hb; simp only [State.feedArms, hs, not_isHeader_eot, if_true]; rfl
  | awNoise hs hb he => simp only [State.feedArms, hs, hb, he, if_false]; rfl
  | bnNext hs hb => simp only [State.feedArms, hs, hb, if_true]
  | bnDup hs hn hb => simp only [State.feedArms, hs]; rw [if_neg hn, if_pos hb]
  | bnHeader hs hn hd hb => simp only [State.feedArms, hs]; rw [if_neg hn, if_neg hd, if_pos hb]
  | bnOther hs hn hd hb => simp only [State.feedArms, hs]; rw [if_neg hn, if_neg hd, if_neg (by simp [hb])]
  | bcMatch hs hb => simp only [State.feedArms, hs, hb, if_true]
  | bcHeader hs hn hb => simp only [State.feedArms, hs]; rw [if_neg hn, if_pos hb]
  | bcOther hs hn hb => simp only [State.feedArms, hs]; rw [if_neg hn, if_neg (by simp [hb])]
  | data hs hi => simp only [State.feedArms, hs, State.feedData, Memory.write_of_lt _ b hi]
  | crcHigh hs => simp only [State.feedArms, hs]
  | crcBad p hs hp hc => simp only [State.feedArms, hs]; rw [State.feedCrcLow_of_ok hp, if_neg hc]
  | crcOk p hs hp hc => simp only [State.feedArms, hs]; rw [State.feedCrcLow_of_ok hp, if_pos hc]
  | ignored hs => rcases hs with hs | hs | hs <;> simp only [State.feedArms, hs]

/-- FEED refuses nothing. -/
theorem State.feedArms_ne_refused (s : State) (b : Byte) (r : Refusal) : s.feedArms b ≠ .refused r := by
  intro h
  unfold State.feedArms at h
  split at h
  · split at h <;> (try split at h) <;> cases h
  · split at h <;> (try split at h) <;> (try split at h) <;> cases h
  · split at h <;> (try split at h) <;> cases h
  · unfold State.feedData at h
    split at h <;> cases h
  · cases h
  · cases hp : s.payload with
    | error g => rw [State.feedCrcLow_of_error hp] at h; cases h
    | ok p => rw [State.feedCrcLow_of_ok hp] at h; split at h <;> cases h
  all_goals cases h

/-- Where a FEED can fault: a payload byte beyond the buffer, or a payload that was never written. -/
theorem State.feedArms_fault {s : State} {b : Byte} {f : Fault} (h : s.feedArms b = .fault f) :
    (s.state = .receivingData ∧ bufCap ≤ s.fillPosition.toNat) ∨
    (s.state = .expectCrcLow ∧ s.payload = .error f) := by
  unfold State.feedArms at h
  split at h
  · split at h <;> (try split at h) <;> cases h
  · split at h <;> (try split at h) <;> (try split at h) <;> cases h
  · split at h <;> (try split at h) <;> cases h
  · next hs =>
    unfold State.feedData at h
    rcases s.packetBuffer.write_cases s.fillPosition.toNat b with ⟨_, hw⟩ | ⟨hi, _⟩
    · rw [hw] at h; cases h
    · exact .inl ⟨hs, hi⟩
  · cases h
  · next hs =>
    cases hp : s.payload with
    | error g => rw [State.feedCrcLow_of_error hp] at h; cases h; exact .inr ⟨hs, rfl⟩
    | ok p => rw [State.feedCrcLow_of_ok hp] at h; split at h <;> cases h
  all_goals cases h

/-- The response of R127 is all that is added to an arm's state. -/
theorem answerFeed_next {r : Result} {t : State} (h : answerFeed r = .next t) :
    ∃ u, r = .next u ∧ t = u.answer (.feed u.packetReady) := by
  cases r with
  | next u => exact ⟨u, rfl, by simpa [answerFeed] using h.symm⟩
  | fault f => cases h
  | refused e => cases h

@[simp] theorem answerFeed_of_next (u : State) :
    answerFeed (.next u) = .next (u.answer (.feed u.packetReady)) := rfl

theorem State.feedByte_next {s t : State} {b : Byte} (h : s.feedByte b = .next t) :
    ∃ u, FeedArm s.clearPorts b u ∧ t = u.answer (.feed u.packetReady) := by
  obtain ⟨u, hu, rfl⟩ := answerFeed_next h
  exact ⟨u, State.feedArms_next hu, rfl⟩

/-- FEED of a byte whose arm is known. -/
theorem FeedArm.feedByte_eq {s t : State} {b : Byte} (h : FeedArm s.clearPorts b t) :
    s.feedByte b = .next (t.answer (.feed t.packetReady)) := by
  unfold State.feedByte
  rw [h.feedArms_eq]
  rfl

/-- Everything a row WIRE_IN8 can answer with: its own arm where its conditions hold, byte intake elsewhere. -/
theorem State.asRow_next {s t : State} {i : Instr} {b : Byte} {arm : State → Result} (h : s.asRow i b arm = .next t) :
    (i.wf = true ∧ i.holdsIn s.rowCtx = true ∧ ∃ u, arm s.clearPorts = .next u ∧ t = u.answer (.feed u.packetReady)) ∨
    s.feedByte b = .next t := by
  unfold State.asRow at h
  split at h
  · next hc =>
    obtain ⟨u, hu, ht⟩ := answerFeed_next h
    simp only [Bool.and_eq_true] at hc
    exact .inl ⟨hc.1, hc.2, u, hu, ht⟩
  · exact .inr h

/-- A row WIRE_IN8 whose own arm is an arm of FEED takes an arm of FEED of its byte. -/
theorem State.asRow_feedArm {s t : State} {i : Instr} {b : Byte} {arm : State → Result}
    (harm : i.wf = true → i.holdsIn s.rowCtx = true → ∀ u, arm s.clearPorts = .next u → FeedArm s.clearPorts b u)
    (h : s.asRow i b arm = .next t) :
    ∃ u, FeedArm s.clearPorts b u ∧ t = u.answer (.feed u.packetReady) := by
  rcases State.asRow_next h with ⟨hw, hc, u, hu, ht⟩ | hf
  · exact ⟨u, harm hw hc u hu, ht⟩
  · exact State.feedByte_next hf

end Sys2Proof.Machine
end

