-- ==== Sys2Proof/Laws/Tick.lean ====
section
/-! SUPPORT. TICK, said once: the arms it can take (42_tick.md R141, R142, R143, R147, R148). -/

namespace Sys2Proof.Machine

open Sys2Proof

/-! ### The tests of a TICK as propositions -/

theorem State.stalled_iff (s : State) (now : Time) :
    s.stalled now = true ↔ s.interval < (now - s.lastActivityTime).toNat :=
  decide_eq_true_iff

theorem State.errorsExceeded_iff (s : State) : s.errorsExceeded = true ↔ s.cfg.maxErrors.val < s.errorCount.toNat :=
  decide_eq_true_iff

theorem State.countError_errorsExceeded_iff (s : State) :
    s.countError.errorsExceeded = true ↔ s.cfg.maxErrors.val < (s.errorCount + 1#8).toNat :=
  s.countError.errorsExceeded_iff

theorem State.preHandshake_iff (s : State) :
    s.preHandshake = true ↔ s.state = .awaitHandshakeOrHeader ∧ s.blockSeen = false := by
  simp [State.preHandshake]

theorem State.finished_iff (s : State) : s.finished = true ↔ s.state = .success ∨ s.state = .failure := by
  simp [State.finished]

@[simp] theorem State.clearPorts_stalled (s : State) (now : Time) : s.clearPorts.stalled now = s.stalled now := rfl
@[simp] theorem State.clearPorts_interval (s : State) : s.clearPorts.interval = s.interval := rfl
@[simp] theorem State.clearPorts_stallByte (s : State) : s.clearPorts.stallByte = s.stallByte := rfl
@[simp] theorem State.clearPorts_preHandshake (s : State) : s.clearPorts.preHandshake = s.preHandshake := rfl
@[simp] theorem State.clearPorts_errorsExceeded (s : State) : s.clearPorts.errorsExceeded = s.errorsExceeded := rfl
@[simp] theorem State.clearPorts_finished (s : State) : s.clearPorts.finished = s.finished := rfl
@[simp] theorem State.clearPorts_active (s : State) : s.clearPorts.active = s.active := rfl

/-- What the first TICK leaves (42_tick.md R142). -/
theorem State.tickFirst_eq (s : State) (now : Time) :
    s.tickFirst now =
      { s with timeValid := true, currentTime := now, lastActivityTime := now
               tx := if s.preHandshake then s.tx ++ [handshakeByte] else s.tx } := by
  have hp : ({ s with timeValid := true, currentTime := now, lastActivityTime := now } : State).preHandshake =
      s.preHandshake := rfl
  simp only [State.tickFirst, hp]
  split <;> rfl

/-- The arm that TICK of `now` takes in `s`, and the state it leaves. -/
inductive TickArm (s : State) (now : Time) : State → Prop where
  | terminal (hf : s.finished = true) : TickArm s now s
  | first (hf : s.finished = false) (hv : s.timeValid = false) : TickArm s now (s.tickFirst now)
  | holding (hv : s.timeValid = true) (hp : s.state = .packetReady) : TickArm s now (s.tickHolding now)
  | quiet (ha : s.active = true) (hv : s.timeValid = true) (hq : s.stalled now = false)
      (he : s.errorsExceeded = false) : TickArm s now (s.tickHolding now)
  | quietFails (ha : s.active = true) (hv : s.timeValid = true) (hq : s.stalled now = false)
      (he : s.errorsExceeded = true) :
      TickArm s now ((s.tickHolding now).takeEvent .maxErrorsExceeded .failure)
  | resends (ha : s.active = true) (hv : s.timeValid = true) (hq : s.stalled now = true)
      (he : s.countError.errorsExceeded = false) :
      TickArm s now (((s.tickHolding now).takeEvent .stall s.state).tickResend now)
  | stallFails (ha : s.active = true) (hv : s.timeValid = true) (hq : s.stalled now = true)
      (he : s.countError.errorsExceeded = true) :
      TickArm s now (((s.tickHolding now).takeEvent .stall s.state).takeEvent .maxErrorsExceeded .failure)

theorem State.tickActive_of_quiet {s : State} {now : Time} (h : s.stalled now = false) :
    s.tickActive now =
      if s.errorsExceeded then (s.tickHolding now).takeEvent .maxErrorsExceeded .failure else s.tickHolding now := by
  have hq : (s.latchTime now).stalled now = false := h
  simp only [State.tickActive, State.tickCount, hq, Bool.false_eq_true, if_false]
  rfl

theorem State.tickActive_of_stalled {s : State} {now : Time} (h : s.stalled now = true) :
    s.tickActive now =
      if s.countError.errorsExceeded then
        ((s.tickHolding now).takeEvent .stall s.state).takeEvent .maxErrorsExceeded .failure
      else ((s.tickHolding now).takeEvent .stall s.state).tickResend now := by
  have hq : (s.latchTime now).stalled now = true := h
  simp only [State.tickActive, State.tickCount, hq, if_true]
  rfl

/-- Everything the dispatch of R140 can do. -/
theorem State.tickArms_cases (s : State) (now : Time) : TickArm s now (s.tickArms now) := by
  unfold State.tickArms
  split
  · next hf => exact .terminal hf
  · next hf =>
    split
    · next hv => exact .first (by simpa using hf) (by simpa using hv)
    · next hv =>
      have hv : s.timeValid = true := by simpa using hv
      split
      · next hp => exact .holding hv (by simpa [State.packetReady] using hp)
      · next hp =>
        have ha : s.active = true := by simp [State.active, hf, hp]
        cases hq : s.stalled now with
        | false =>
          rw [State.tickActive_of_quiet hq]
          split
          · next he => exact .quietFails ha hv hq he
          · next he => exact .quiet ha hv hq (by simpa using he)
        | true =>
          rw [State.tickActive_of_stalled hq]
          split
          · next he => exact .stallFails ha hv hq he
          · next he => exact .resends ha hv hq (by simpa using he)

/-! ### What the arms of an active state leave, as one update each -/

theorem State.tickHolding_eq (s : State) (now : Time) : s.tickHolding now = { s with currentTime := now } := rfl

theorem State.tickQuietFails_eq (s : State) (now : Time) :
    (s.tickHolding now).takeEvent .maxErrorsExceeded .failure =
      { s with state := .failure, currentTime := now, events := s.events ++ [.maxErrorsExceeded] } := rfl

theorem State.tickResends_eq (s : State) (now : Time) :
    ((s.tickHolding now).takeEvent .stall s.state).tickResend now =
      { s with currentTime := now, lastActivityTime := now, errorCount := s.errorCount + 1#8
               tx := s.tx ++ [s.stallByte], events := s.events ++ [.stall] } := by
  simp [State.tickResend, State.tickHolding, State.latchTime, State.noteEvent, State.countError, State.goto, State.emit]
  rfl

theorem State.tickStallFails_eq (s : State) (now : Time) :
    ((s.tickHolding now).takeEvent .stall s.state).takeEvent .maxErrorsExceeded .failure =
      { s with state := .failure, currentTime := now, errorCount := s.errorCount + 1#8
               events := s.events ++ [.stall, .maxErrorsExceeded] } := by
  simp [State.tickHolding, State.latchTime, State.noteEvent, State.countError, State.goto]

theorem State.active_iff (s : State) :
    s.active = true ↔ s.state ≠ .success ∧ s.state ≠ .failure ∧ s.state ≠ .packetReady := by
  simp [State.active, State.finished, State.packetReady, and_assoc]

theorem State.finished_of_active {s : State} (h : s.active = true) : s.finished = false := by
  simp [State.active] at h
  exact h.1

theorem State.packetReady_of_active {s : State} (h : s.active = true) : s.packetReady = false := by
  simp [State.active] at h
  exact h.2

/-- The arm whose conditions hold is the one the dispatch of R140 takes. -/
theorem TickArm.tickArms_eq {s t : State} {now : Time} (h : TickArm s now t) : s.tickArms now = t := by
  unfold State.tickArms
  cases h with
  | terminal hf => simp [hf]
  | first hf hv => simp [hf, hv]
  | holding hv hp => simp [hv, hp, State.finished, State.packetReady]
  | quiet ha hv hq he =>
    simp [State.finished_of_active ha, State.packetReady_of_active ha, hv, State.tickActive_of_quiet hq, he]
  | quietFails ha hv hq he =>
    simp [State.finished_of_active ha, State.packetReady_of_active ha, hv, State.tickActive_of_quiet hq, he]
  | resends ha hv hq he =>
    simp [State.finished_of_active ha, State.packetReady_of_active ha, hv, State.tickActive_of_stalled hq, he]
  | stallFails ha hv hq he =>
    simp [State.finished_of_active ha, State.packetReady_of_active ha, hv, State.tickActive_of_stalled hq, he]

end Sys2Proof.Machine
end

