-- ==== Sys2Proof/Laws/Exec.lean ====
section
/-! SUPPORT. What any instruction can do, said once: byte intake, a TICK, an EXTRACT, or a change of the ports alone. -/

namespace Sys2Proof.Machine

open Sys2Proof

theorem isHeader_headerByte {h : BitVec 2} (hw : (h == 1#2 || h == 2#2) = true) : isHeader (headerByte h) = true := by
  revert h; decide

/-- Everything an instruction can answer with a next state. -/
theorem exec_next {i : Instr} {s t : State} (h : exec i s = .next t) :
    (∃ b, (i = .feed b ∨ encode s.cfg.nackByte i = .wireIn8 b) ∧
      ∃ u, FeedArm s.clearPorts b u ∧ t = u.answer (.feed u.packetReady)) ∨
    (∃ now, i = .tick now ∧ TickArm s.clearPorts now t) ∨
    (i = .extract ∧ ExtractArm s.clearPorts t) ∨
    (i ≠ .extract ∧ (¬ ∃ b, i = .feed b ∨ encode s.cfg.nackByte i = .wireIn8 b) ∧
      ∃ b, (b = ackByte ∨ b = s.cfg.nackByte ∨ b = handshakeByte) ∧ t = s.clearPorts.emit b) ∨
    (i ≠ .extract ∧ (¬ ∃ b, i = .feed b ∨ encode s.cfg.nackByte i = .wireIn8 b) ∧
      ∃ r, ((∃ c, r = .stateCode c) ∨ ∃ y, r = .finished y) ∧ t = s.clearPorts.answer r) := by
  cases i with
  | feed b => exact .inl ⟨b, .inl rfl, State.feedByte_next h⟩
  | tick now =>
    simp only [exec, execTick, Host.Outcome.next.injEq] at h
    exact .inr (.inl ⟨now, rfl, h ▸ State.tickArms_cases _ now⟩)
  | extract => exact .inr (.inr (.inl ⟨rfl, State.extractArms_next h⟩))
  | qstate => cases h; exact .inr (.inr (.inr (.inr ⟨by simp, by simp [encode], _, .inl ⟨_, rfl⟩, rfl⟩)))
  | qfin => cases h; exact .inr (.inr (.inr (.inr ⟨by simp, by simp [encode], _, .inr ⟨_, rfl⟩, rfl⟩)))
  | reserved5 => cases h
  | reserved6 => cases h
  | reserved7 => cases h
  | ack => cases h; exact .inr (.inr (.inr (.inl ⟨by simp, by simp [encode], _, .inl rfl, rfl⟩)))
  | nackByte => cases h; exact .inr (.inr (.inr (.inl ⟨by simp, by simp [encode], _, .inr (.inl rfl), rfl⟩)))
  | handshake => cases h; exact .inr (.inr (.inr (.inl ⟨by simp, by simp [encode], _, .inr (.inr rfl), rfl⟩)))
  | stateAwaitHandshakeOrHeader | stateExpectBlockNum | stateExpectBlockNumComplement | stateReceivingData
  | stateExpectCrcHigh | stateExpectCrcLow | statePacketReady | stateSuccess | stateFailure =>
    refine .inr (.inr (.inr (.inr ⟨by simp, by simp [encode], ?_⟩)))
    simp only [exec, execStateAwaitHandshakeOrHeader, execStateExpectBlockNum, execStateExpectBlockNumComplement,
      execStateReceivingData, execStateExpectCrcHigh, execStateExpectCrcLow, execStatePacketReady, execStateSuccess,
      execStateFailure, State.asCode] at h
    split at h <;> cases h <;> exact ⟨_, .inl ⟨_, rfl⟩, rfl⟩
  | awHdrStd =>
    simp only [exec, execAwHdrStd] at h
    refine .inl ⟨_, .inr rfl, State.asRow_feedArm (fun hw hc u hu => ?_) h⟩
    cases hu
    exact .awHeader (by simpa [Instr.holdsIn, State.rowCtx] using hc) (by decide)
  | awHdrExt =>
    simp only [exec, execAwHdrExt] at h
    refine .inl ⟨_, .inr rfl, State.asRow_feedArm (fun hw hc u hu => ?_) h⟩
    cases hu
    exact .awHeader (by simpa [Instr.holdsIn, State.rowCtx] using hc) (by decide)
  | awEot =>
    simp only [exec, execAwEot] at h
    refine .inl ⟨_, .inr rfl, State.asRow_feedArm (fun hw hc u hu => ?_) h⟩
    cases hu
    exact .awEot (by simpa [Instr.holdsIn, State.rowCtx] using hc) rfl
  | awNoise b =>
    simp only [exec, execAwNoise] at h
    refine .inl ⟨_, .inr rfl, State.asRow_feedArm (fun hw hc u hu => ?_) h⟩
    cases hu
    simp [Instr.wf] at hw
    exact .awNoise (by simpa [Instr.holdsIn, State.rowCtx] using hc) (by simp [isHeader, hdrStd, hdrExt, hw]) (by simp [eotByte, hw])
  | bnNext b =>
    simp only [exec, execBnNext] at h
    refine .inl ⟨_, .inr rfl, State.asRow_feedArm (fun hw hc u hu => ?_) h⟩
    cases hu
    simp [Instr.holdsIn, State.rowCtx, RowCtx.candidate] at hc
    exact .bnNext hc.1 hc.2
  | bnDup b =>
    simp only [exec, execBnDup] at h
    refine .inl ⟨_, .inr rfl, State.asRow_feedArm (fun hw hc u hu => ?_) h⟩
    cases hu
    simp [Instr.holdsIn, State.rowCtx, RowCtx.candidate] at hc
    exact .bnDup hc.1.1 hc.1.2 hc.2
  | bnHdr k =>
    simp only [exec, execBnHdr] at h
    refine .inl ⟨_, .inr rfl, State.asRow_feedArm (fun hw hc u hu => ?_) h⟩
    cases hu
    simp [Instr.holdsIn, State.rowCtx, RowCtx.candidate] at hc
    exact .bnHeader hc.1.1 hc.1.2 hc.2 (isHeader_headerByte hw)
  | bnOther b =>
    simp only [exec, execBnOther] at h
    refine .inl ⟨_, .inr rfl, State.asRow_feedArm (fun hw hc u hu => ?_) h⟩
    cases hu
    simp [Instr.holdsIn, State.rowCtx, RowCtx.candidate] at hc
    simp [Instr.wf] at hw
    exact .bnOther hc.1.1 hc.1.2 hc.2 (by simp [isHeader, hdrStd, hdrExt, hw])
  | bcMatch b =>
    simp only [exec, execBcMatch] at h
    refine .inl ⟨_, .inr rfl, State.asRow_feedArm (fun hw hc u hu => ?_) h⟩
    cases hu
    simp [Instr.holdsIn, State.rowCtx, RowCtx.complement] at hc
    exact .bcMatch hc.1 hc.2
  | bcHdr k =>
    simp only [exec, execBcHdr] at h
    refine .inl ⟨_, .inr rfl, State.asRow_feedArm (fun hw hc u hu => ?_) h⟩
    cases hu
    simp [Instr.holdsIn, State.rowCtx, RowCtx.complement] at hc
    exact .bcHeader hc.1 hc.2 (isHeader_headerByte hw)
  | bcOther b =>
    simp only [exec, execBcOther] at h
    refine .inl ⟨_, .inr rfl, State.asRow_feedArm (fun hw hc u hu => ?_) h⟩
    cases hu
    simp [Instr.holdsIn, State.rowCtx, RowCtx.complement] at hc
    simp [Instr.wf] at hw
    exact .bcOther hc.1 hc.2 (by simp [isHeader, hdrStd, hdrExt, hw])
  | chCrchi b =>
    simp only [exec, execChCrchi] at h
    refine .inl ⟨_, .inr rfl, State.asRow_feedArm (fun hw hc u hu => ?_) h⟩
    cases hu
    simp [Instr.holdsIn, State.rowCtx] at hc
    exact .crcHigh hc
  | prIgnored b =>
    simp only [exec, execPrIgnored] at h
    refine .inl ⟨_, .inr rfl, State.asRow_feedArm (fun hw hc u hu => ?_) h⟩
    cases hu
    simp [Instr.holdsIn, State.rowCtx] at hc
    exact .ignored (.inl hc)
  | termIgnored b =>
    simp only [exec, execTermIgnored] at h
    refine .inl ⟨_, .inr rfl, State.asRow_feedArm (fun hw hc u hu => ?_) h⟩
    cases hu
    simp [Instr.holdsIn, State.rowCtx] at hc
    exact .ignored (.inr hc)
  | rdData b =>
    simp only [exec, execRdData] at h
    refine .inl ⟨_, .inr rfl, State.asRow_feedArm (fun hw hc u hu => State.feedArms_next ?_) h⟩
    simp [Instr.holdsIn, State.rowCtx] at hc
    simpa [State.feedArms, hc] using hu
  | clCrcloBad b =>
    simp only [exec, execClCrcloBad] at h
    refine .inl ⟨_, .inr rfl, State.asRow_feedArm (fun hw hc u hu => ?_) h⟩
    simp only [State.clearPorts_payload] at hu
    cases hp : s.payload with
    | error f => simp [hp] at hu
    | ok p =>
      simp only [hp, Host.Outcome.next.injEq] at hu
      subst hu
      simp [Instr.holdsIn, State.rowCtx, RowCtx.crcMatches, State.payloadCrc_of_ok hp] at hc
      exact .crcBad p hc.1 hp fun heq => hc.2 heq.symm
  | clCrcloOk b =>
    simp only [exec, execClCrcloOk] at h
    refine .inl ⟨_, .inr rfl, State.asRow_feedArm (fun hw hc u hu => ?_) h⟩
    simp only [State.clearPorts_payload] at hu
    cases hp : s.payload with
    | error f => simp [hp] at hu
    | ok p =>
      simp only [hp, Host.Outcome.next.injEq] at hu
      subst hu
      simp [Instr.holdsIn, State.rowCtx, RowCtx.crcMatches, State.payloadCrc_of_ok hp] at hc
      exact .crcOk p hc.1 hp hc.2.symm

/-- Everything a step can do: nothing, an instruction, or what the outside does. -/
theorem step_cases (s : State) :
    (s.input = [] ∧ step s = .next s) ∨
    (∃ i rest instr, s.input = i :: rest ∧ s.instructionOf i = some instr ∧ step s = exec instr (s.consumed rest)) ∨
    (∃ i rest, s.input = i :: rest ∧ s.instructionOf i = none ∧ step s = .next ((s.consumed rest).fromOutside i)) := by
  unfold step
  cases h : s.input with
  | nil => exact .inl ⟨rfl, rfl⟩
  | cons i rest =>
    cases hi : s.instructionOf i with
    | none => exact .inr (.inr ⟨i, rest, rfl, hi, by simp [hi]⟩)
    | some instr => exact .inr (.inl ⟨i, rest, instr, rfl, hi, by simp [hi]⟩)

end Sys2Proof.Machine
end

