-- ==== Sys2Proof/Laws/PerInstr.lean ====
section
/-! SUPPORT. Laws said per instruction. The family TableRow: the encoder's word of an instruction is a word of its row
of spec/opcode_table.json, that is, it has the row's format and the bits that the row's encoding string fixes. -/

namespace Sys2Proof.Laws.TableRow

open Sys2Proof

/-- The four formats of the table. -/
inductive Format where
  | cmd35
  | wireIn8
  | wireOut8
  | state4
deriving DecidableEq, Repr

/-- A row's format, the bits its encoding string fixes, and their values. -/
structure Row where
  format : Format
  mask : Nat
  value : Nat
deriving DecidableEq, Repr

/-- The rows, from the column "encoding" of spec/opcode_table.json. -/
def rowOf : Instr → Row
  | .feed _ => ⟨.cmd35, 0x700000000, 0x0⟩
  | .tick _ => ⟨.cmd35, 0x700000000, 0x100000000⟩
  | .extract => ⟨.cmd35, 0x700000000, 0x200000000⟩
  | .qstate => ⟨.cmd35, 0x700000000, 0x300000000⟩
  | .qfin => ⟨.cmd35, 0x700000000, 0x400000000⟩
  | .reserved5 => ⟨.cmd35, 0x700000000, 0x500000000⟩
  | .reserved6 => ⟨.cmd35, 0x700000000, 0x600000000⟩
  | .reserved7 => ⟨.cmd35, 0x700000000, 0x700000000⟩
  | .awHdrStd => ⟨.wireIn8, 0xFF, 0x1⟩
  | .awHdrExt => ⟨.wireIn8, 0xFF, 0x2⟩
  | .awEot => ⟨.wireIn8, 0xFF, 0x4⟩
  | .awNoise _ => ⟨.wireIn8, 0x0, 0x0⟩
  | .bnNext _ => ⟨.wireIn8, 0x0, 0x0⟩
  | .bnDup _ => ⟨.wireIn8, 0x0, 0x0⟩
  | .bnHdr _ => ⟨.wireIn8, 0xFC, 0x0⟩
  | .bnOther _ => ⟨.wireIn8, 0x0, 0x0⟩
  | .bcMatch _ => ⟨.wireIn8, 0x0, 0x0⟩
  | .bcHdr _ => ⟨.wireIn8, 0xFC, 0x0⟩
  | .bcOther _ => ⟨.wireIn8, 0x0, 0x0⟩
  | .rdData _ => ⟨.wireIn8, 0x0, 0x0⟩
  | .chCrchi _ => ⟨.wireIn8, 0x0, 0x0⟩
  | .clCrcloBad _ => ⟨.wireIn8, 0x0, 0x0⟩
  | .clCrcloOk _ => ⟨.wireIn8, 0x0, 0x0⟩
  | .prIgnored _ => ⟨.wireIn8, 0x0, 0x0⟩
  | .termIgnored _ => ⟨.wireIn8, 0x0, 0x0⟩
  | .ack => ⟨.wireOut8, 0xFF, 0x6⟩
  | .nackByte => ⟨.wireOut8, 0x0, 0x0⟩
  | .handshake => ⟨.wireOut8, 0xFF, 0x43⟩
  | .stateAwaitHandshakeOrHeader => ⟨.state4, 0xF, 0x0⟩
  | .stateExpectBlockNum => ⟨.state4, 0xF, 0x1⟩
  | .stateExpectBlockNumComplement => ⟨.state4, 0xF, 0x2⟩
  | .stateReceivingData => ⟨.state4, 0xF, 0x3⟩
  | .stateExpectCrcHigh => ⟨.state4, 0xF, 0x4⟩
  | .stateExpectCrcLow => ⟨.state4, 0xF, 0x5⟩
  | .statePacketReady => ⟨.state4, 0xF, 0x6⟩
  | .stateSuccess => ⟨.state4, 0xF, 0x7⟩
  | .stateFailure => ⟨.state4, 0xF, 0x8⟩

/-- The format and the number a word is. -/
def wordOf : Encoded → Format × Nat
  | .cmd35 w => (.cmd35, w.toNat)
  | .wireIn8 b => (.wireIn8, b.toNat)
  | .wireOut8 b => (.wireOut8, b.toNat)
  | .state4 c => (.state4, c.toNat)

/-- The encoder's word of `i` has the format and the fixed bits of its row. -/
def Statement (i : Instr) : Prop :=
  ∀ nack : Byte, (wordOf (encode nack i)).1 = (rowOf i).format ∧
    (wordOf (encode nack i)).2 &&& (rowOf i).mask = (rowOf i).value

/-- The operation code stands above the 32 bits of the operand. -/
theorem commandWord_and_mask (op : BitVec 3) (arg : BitVec 32) :
    (commandWord op arg).toNat &&& 0x700000000 = op.toNat * 2 ^ 32 := by
  have h : commandWord op arg &&& 0x700000000#35 = op ++ 0#32 := by
    apply BitVec.eq_of_getLsbD_eq
    intro i hi
    have hm : (0x700000000#35).getLsbD i = decide (32 ≤ i) := by
      have : ∀ j : Fin 35, (0x700000000#35).getLsbD j = decide (32 ≤ j.val) := by decide
      exact this ⟨i, hi⟩
    simp only [commandWord, BitVec.getLsbD_and, hm, BitVec.getLsbD_append]
    by_cases h32 : i < 32
    · simp [h32, Nat.not_le.mpr h32]
    · simp [h32, Nat.le_of_not_lt h32]
  have h2 : (commandWord op arg).toNat &&& 0x700000000 = (op ++ 0#32).toNat := by
    rw [← h]; simp
  rw [h2]
  clear h h2
  revert op
  decide

theorem feed (b : Byte) : Statement (.feed b) := fun _ => ⟨rfl, commandWord_and_mask _ _⟩

theorem tick (now : Time) : Statement (.tick now) := fun _ => ⟨rfl, commandWord_and_mask _ _⟩

theorem extract : Statement .extract := fun _ => ⟨rfl, commandWord_and_mask _ _⟩

theorem qstate : Statement .qstate := fun _ => ⟨rfl, commandWord_and_mask _ _⟩

theorem qfin : Statement .qfin := fun _ => ⟨rfl, commandWord_and_mask _ _⟩

theorem reserved5 : Statement .reserved5 := fun _ => ⟨rfl, commandWord_and_mask _ _⟩

theorem reserved6 : Statement .reserved6 := fun _ => ⟨rfl, commandWord_and_mask _ _⟩

theorem reserved7 : Statement .reserved7 := fun _ => ⟨rfl, commandWord_and_mask _ _⟩

theorem awHdrStd : Statement .awHdrStd := fun _ => ⟨rfl, by show hdrStd.toNat &&& 0xFF = 0x1; decide⟩

theorem awHdrExt : Statement .awHdrExt := fun _ => ⟨rfl, by show hdrExt.toNat &&& 0xFF = 0x2; decide⟩

theorem awEot : Statement .awEot := fun _ => ⟨rfl, by show eotByte.toNat &&& 0xFF = 0x4; decide⟩

theorem awNoise (b : Byte) : Statement (.awNoise b) := fun _ => ⟨rfl, Nat.and_zero _⟩

theorem bnNext (b : Byte) : Statement (.bnNext b) := fun _ => ⟨rfl, Nat.and_zero _⟩

theorem bnDup (b : Byte) : Statement (.bnDup b) := fun _ => ⟨rfl, Nat.and_zero _⟩

theorem bnHdr (h : BitVec 2) : Statement (.bnHdr h) := fun _ =>
  ⟨rfl, by show (headerByte h).toNat &&& 0xFC = 0; revert h; decide⟩

theorem bnOther (b : Byte) : Statement (.bnOther b) := fun _ => ⟨rfl, Nat.and_zero _⟩

theorem bcMatch (b : Byte) : Statement (.bcMatch b) := fun _ => ⟨rfl, Nat.and_zero _⟩

theorem bcHdr (h : BitVec 2) : Statement (.bcHdr h) := fun _ =>
  ⟨rfl, by show (headerByte h).toNat &&& 0xFC = 0; revert h; decide⟩

theorem bcOther (b : Byte) : Statement (.bcOther b) := fun _ => ⟨rfl, Nat.and_zero _⟩

theorem rdData (b : Byte) : Statement (.rdData b) := fun _ => ⟨rfl, Nat.and_zero _⟩

theorem chCrchi (b : Byte) : Statement (.chCrchi b) := fun _ => ⟨rfl, Nat.and_zero _⟩

theorem clCrcloBad (b : Byte) : Statement (.clCrcloBad b) := fun _ => ⟨rfl, Nat.and_zero _⟩

theorem clCrcloOk (b : Byte) : Statement (.clCrcloOk b) := fun _ => ⟨rfl, Nat.and_zero _⟩

theorem prIgnored (b : Byte) : Statement (.prIgnored b) := fun _ => ⟨rfl, Nat.and_zero _⟩

theorem termIgnored (b : Byte) : Statement (.termIgnored b) := fun _ => ⟨rfl, Nat.and_zero _⟩

theorem ack : Statement .ack := fun _ => ⟨rfl, by show ackByte.toNat &&& 0xFF = 0x6; decide⟩

theorem nackByte : Statement .nackByte := fun _ => ⟨rfl, Nat.and_zero _⟩

theorem handshake : Statement .handshake := fun _ => ⟨rfl, by show handshakeByte.toNat &&& 0xFF = 0x43; decide⟩

theorem stateAwaitHandshakeOrHeader : Statement .stateAwaitHandshakeOrHeader := fun _ => ⟨rfl, by show (FsmState.awaitHandshakeOrHeader.code).toNat &&& 0xF = 0x0; decide⟩

theorem stateExpectBlockNum : Statement .stateExpectBlockNum := fun _ => ⟨rfl, by show (FsmState.expectBlockNum.code).toNat &&& 0xF = 0x1; decide⟩

theorem stateExpectBlockNumComplement : Statement .stateExpectBlockNumComplement := fun _ => ⟨rfl, by show (FsmState.expectBlockNumComplement.code).toNat &&& 0xF = 0x2; decide⟩

theorem stateReceivingData : Statement .stateReceivingData := fun _ => ⟨rfl, by show (FsmState.receivingData.code).toNat &&& 0xF = 0x3; decide⟩

theorem stateExpectCrcHigh : Statement .stateExpectCrcHigh := fun _ => ⟨rfl, by show (FsmState.expectCrcHigh.code).toNat &&& 0xF = 0x4; decide⟩

theorem stateExpectCrcLow : Statement .stateExpectCrcLow := fun _ => ⟨rfl, by show (FsmState.expectCrcLow.code).toNat &&& 0xF = 0x5; decide⟩

theorem statePacketReady : Statement .statePacketReady := fun _ => ⟨rfl, by show (FsmState.packetReady.code).toNat &&& 0xF = 0x6; decide⟩

theorem stateSuccess : Statement .stateSuccess := fun _ => ⟨rfl, by show (FsmState.success.code).toNat &&& 0xF = 0x7; decide⟩

theorem stateFailure : Statement .stateFailure := fun _ => ⟨rfl, by show (FsmState.failure.code).toNat &&& 0xF = 0x8; decide⟩

end Sys2Proof.Laws.TableRow
end

