-- ==== Sys2Proof/Laws/Trace.lean ====
section
/-! SUPPORT. Runs over a trace: what presenting one input does, and traces put end to end. -/

namespace Sys2Proof.Safety

open Sys2Proof Sys2Proof.Machine

/-! ### The invariant says nothing of the inputs and the ports -/

theorem Inv.present {s : State} (h : Inv s) (i : Input) : Inv (s.present i) :=
  ⟨h.bufferCanonical, h.sizeLegal, h.fillBounded, h.roomWhileReceiving, h.fullWhenComplete, h.filledIsWritten,
    h.lowHalfClear, h.readyMatched, h.readySeen, h.unseenUndelivered, h.errorsBounded, h.clockUnset⟩

theorem Inv.consumed {s : State} (h : Inv s) (rest : List Input) : Inv (s.consumed rest) :=
  ⟨h.bufferCanonical, h.sizeLegal, h.fillBounded, h.roomWhileReceiving, h.fullWhenComplete, h.filledIsWritten,
    h.lowHalfClear, h.readyMatched, h.readySeen, h.unseenUndelivered, h.errorsBounded, h.clockUnset⟩

theorem Inv.ports {s : State} (h : Inv s) (tx : List Byte) (r : Option Response) (ev : List Event) :
    Inv (ports s tx r ev) :=
  ⟨h.bufferCanonical, h.sizeLegal, h.fillBounded, h.roomWhileReceiving, h.fullWhenComplete, h.filledIsWritten,
    h.lowHalfClear, h.readyMatched, h.readySeen, h.unseenUndelivered, h.errorsBounded, h.clockUnset⟩

/-! ### Steps and traces -/

/-- A presented command word runs its instruction on the state as it was. -/
theorem step_present_command (s : State) (w : CmdWord) : step (s.present (.command w)) = exec (decodeCommand w) s := rfl

/-- A presented wire byte runs the instruction of its class on the state as it was. -/
theorem step_present_wireByte (s : State) (b : Byte) :
    step (s.present (.wireByte b)) = exec (decodeWire s.rowCtx b) s := rfl

@[simp] theorem step_present_feedInput (s : State) (b : Byte) : step (s.present (feedInput b)) = exec (.feed b) s := by
  rw [feedInput, step_present_command]
  congr 1
  simp [decodeCommand]

@[simp] theorem step_present_tickInput (s : State) (now : Time) :
    step (s.present (tickInput now)) = exec (.tick now) s := by
  rw [tickInput, step_present_command]
  congr 1
  simp [decodeCommand]

@[simp] theorem step_present_extractInput (s : State) : step (s.present extractInput) = exec .extract s := by
  rw [extractInput, step_present_command]
  rfl

@[simp] theorem runInputs_nil (s : State) : runInputs [] s = .next s := rfl

theorem runInputs_cons_next {i : Input} {s t : State} (h : step (s.present i) = .next t) (rest : List Input) :
    runInputs (i :: rest) s = runInputs rest t := by
  simp [runInputs, h]

/-- A trace that runs through is followed by the next one. -/
theorem runInputs_append {first : List Input} {s t : State} (h : runInputs first s = .next t) (second : List Input) :
    runInputs (first ++ second) s = runInputs second t := by
  induction first generalizing s with
  | nil => cases h; rfl
  | cons i rest ih =>
    cases hi : step (s.present i) with
    | next u =>
      rw [runInputs_cons_next hi] at h
      rw [List.cons_append, runInputs_cons_next hi]
      exact ih h
    | fault f => simp [runInputs, hi] at h
    | refused r => simp [runInputs, hi] at h

@[simp] theorem emittedBy_nil (s : State) : emittedBy [] s = [] := rfl

/-- One input more in front: an operation adds its output list, another input nothing. -/
theorem emittedBy_cons {i : Input} {s t : State} (h : step (s.present i) = .next t) (rest : List Input) :
    emittedBy (i :: rest) s = (if i.isOperation then t.tx else []) ++ emittedBy rest t := by
  simp [emittedBy, h]

theorem emittedBy_cons_next {i : Input} {s t : State} (h : step (s.present i) = .next t) (rest : List Input)
    (hop : i.isOperation = true := by rfl) : emittedBy (i :: rest) s = t.tx ++ emittedBy rest t := by
  rw [emittedBy_cons h, hop, if_pos rfl]

/-- A change of the destination emits nothing. -/
@[simp] theorem emittedBy_destination (n : Nat) (rest : List Input) (s : State) :
    emittedBy (.destination n :: rest) s = emittedBy rest { s with destCapacity := n } := rfl

/-- Reset emits nothing. -/
@[simp] theorem emittedBy_reset (rest : List Input) (s : State) :
    emittedBy (.reset :: rest) s = emittedBy rest s.resetSession := rfl

/-- The bytes of two traces end to end. -/
theorem emittedBy_append {first : List Input} {s t : State} (h : runInputs first s = .next t) (second : List Input) :
    emittedBy (first ++ second) s = emittedBy first s ++ emittedBy second t := by
  induction first generalizing s with
  | nil => cases h; rfl
  | cons i rest ih =>
    cases hi : step (s.present i) with
    | next u =>
      rw [runInputs_cons_next hi] at h
      rw [List.cons_append, emittedBy_cons hi, emittedBy_cons hi, ih h, List.append_assoc]
    | fault f => simp [runInputs, hi] at h
    | refused r => simp [runInputs, hi] at h

end Sys2Proof.Safety
end

