-- ==== Sys2Proof/Tests/Slice0.lean ====
section
/-! SUPPORT. Tests: ill-formed operands, the decoding of written-out words, one step each on small states, and for every
obligation with hypotheses a state that meets them. The expected results are the vectors of spec/95_test_vectors.md
(named V-… as there) and the encodings of spec/opcode_table.json and spec/30_encoding.md. -/

namespace Sys2Proof.Tests

open Sys2Proof Sys2Proof.Machine Sys2Proof.Safety

/-! ## Helpers -/

/-- A test on the next state of an outcome. -/
def ran (r : Result) (check : State → Bool) : Bool :=
  match r with
  | .next t => check t
  | .fault _ => false
  | .refused _ => false

/-- The reset state with another state of the FSM. -/
def at_ (f : FsmState) : State := { State.reset with state := f }

/-- The same with a number expected. -/
def atBlock (f : FsmState) (expected : Byte) (duplicate : Bool) : State :=
  { at_ f with expectedBlock := expected, isDuplicateBlock := duplicate }

/-- The buffer with 128 zero bytes stored. -/
def zeros : Memory := (List.range 128).map fun k => (k, 0#8)

/-- The payload of 128 zero bytes. -/
def zeroPayload : List Byte := List.replicate 128 0#8

/-- The zero payload received, in a given state of the FSM. -/
def full (f : FsmState) : State := { at_ f with packetBuffer := zeros, fillPosition := 128#11 }

/-- The two payload bytes FF FF, whose CRC is 0x1D0F (V-K4), received in a packet cut to two bytes: small enough for the
kernel to evaluate its CRC. -/
def short (f : FsmState) : State :=
  { at_ f with packetSize := 2#11, packetBuffer := [(0, 0xFF#8), (1, 0xFF#8)], fillPosition := 2#11 }

/-- A packet waiting to be extracted. -/
def ready (duplicate : Bool) : State := { full .packetReady with blockSeen := true, isDuplicateBlock := duplicate }

/-- The clock running: the first TICK was taken. -/
def ticking (f : FsmState) (last : Time) (errors : BitVec 8) : State :=
  { at_ f with timeValid := true, lastActivityTime := last, currentTime := last, errorCount := errors }

/-- A decoding context in one state of the FSM. -/
def ctx (f : FsmState) (expected : Byte) (duplicate : Bool) : RowCtx :=
  { RowCtx.reset with fsm := f, expectedBlock := expected, isDuplicate := duplicate }

/-! ## Ill-formed operands -/

theorem test_wf_noise_is_no_marker :
    Instr.wf (.awNoise 0x01#8) = false ∧ Instr.wf (.awNoise 0x02#8) = false ∧ Instr.wf (.awNoise 0x04#8) = false := by
  decide

theorem test_wf_header_bits_in_block_number : Instr.wf (.bnHdr 0#2) = false ∧ Instr.wf (.bnHdr 3#2) = false := by
  decide

theorem test_wf_header_bits_in_complement : Instr.wf (.bcHdr 0#2) = false ∧ Instr.wf (.bcHdr 3#2) = false := by
  decide

theorem test_wf_other_block_number_is_no_marker :
    Instr.wf (.bnOther 0x01#8) = false ∧ Instr.wf (.bnOther 0x02#8) = false := by decide

theorem test_wf_other_complement_is_no_marker :
    Instr.wf (.bcOther 0x01#8) = false ∧ Instr.wf (.bcOther 0x02#8) = false := by decide

/-! ## Decoding: words written out from the encodings -/

/-- CMD35: op in bits 34 to 32 (R82), the ignored bits of R84 set in V-F36, V-X12 and V-R3. -/
theorem test_decode_commands :
    decodeCommand 0b00000000000000000000000000010100101#35 = .feed 0xA5#8 ∧
    decodeCommand 0x0FFFFFF01#35 = .feed 0x01#8 ∧
    decodeCommand 0b00100000000000000000000001111101000#35 = .tick 1000#32 ∧
    decodeCommand 0x1FFFFFFFF#35 = .tick 0xFFFFFFFF#32 ∧
    decodeCommand 0x2DEADBEEF#35 = .extract ∧
    decodeCommand 0b01100000000000000000000000000000000#35 = .qstate ∧
    decodeCommand 0x400000001#35 = .qfin ∧
    decodeCommand 0x500000000#35 = .reserved5 ∧
    decodeCommand 0x600000000#35 = .reserved6 ∧
    decodeCommand 0x7FFFFFFFF#35 = .reserved7 := by decide

/-- WIRE_IN8 in AWAIT_HANDSHAKE_OR_HEADER (R70, R77). -/
theorem test_decode_header_wait :
    decodeWire (ctx .awaitHandshakeOrHeader 0#8 false) 0b00000001#8 = .awHdrStd ∧
    decodeWire (ctx .awaitHandshakeOrHeader 0#8 false) 0b00000010#8 = .awHdrExt ∧
    decodeWire (ctx .awaitHandshakeOrHeader 0#8 false) 0b00000100#8 = .awEot ∧
    decodeWire (ctx .awaitHandshakeOrHeader 0#8 false) 0x43#8 = .awNoise 0x43#8 := by decide

/-- WIRE_IN8 in EXPECT_BLOCK_NUM: the overlaps of R78. -/
theorem test_decode_block_number :
    decodeWire (ctx .expectBlockNum 255#8 false) 0x00#8 = .bnNext 0x00#8 ∧
    decodeWire (ctx .expectBlockNum 0#8 false) 0x01#8 = .bnNext 0x01#8 ∧
    decodeWire (ctx .expectBlockNum 3#8 false) 0x04#8 = .bnNext 0x04#8 ∧
    decodeWire (ctx .expectBlockNum 1#8 false) 0x01#8 = .bnDup 0x01#8 ∧
    decodeWire (ctx .expectBlockNum 2#8 false) 0x02#8 = .bnDup 0x02#8 ∧
    decodeWire (ctx .expectBlockNum 0#8 false) 0b00000010#8 = .bnHdr 0b10#2 ∧
    decodeWire (ctx .expectBlockNum 9#8 false) 0b00000001#8 = .bnHdr 0b01#2 ∧
    decodeWire (ctx .expectBlockNum 0#8 false) 0x04#8 = .bnOther 0x04#8 := by decide

/-- WIRE_IN8 in EXPECT_BLOCK_NUM_COMPLEMENT: the overlaps of R78. -/
theorem test_decode_complement :
    decodeWire (ctx .expectBlockNumComplement 253#8 false) 0x01#8 = .bcMatch 0x01#8 ∧
    decodeWire (ctx .expectBlockNumComplement 252#8 false) 0x02#8 = .bcMatch 0x02#8 ∧
    decodeWire (ctx .expectBlockNumComplement 1#8 true) 0xFE#8 = .bcMatch 0xFE#8 ∧
    decodeWire (ctx .expectBlockNumComplement 0#8 false) 0b00000001#8 = .bcHdr 0b01#2 ∧
    decodeWire (ctx .expectBlockNumComplement 0#8 false) 0b00000010#8 = .bcHdr 0b10#2 ∧
    decodeWire (ctx .expectBlockNumComplement 0#8 false) 0xFF#8 = .bcOther 0xFF#8 := by decide

/-- WIRE_IN8 elsewhere: field values and ignored bytes (R77). -/
theorem test_decode_fields :
    decodeWire (ctx .receivingData 0#8 false) 0x04#8 = .rdData 0x04#8 ∧
    decodeWire (ctx .expectCrcHigh 0#8 false) 0x31#8 = .chCrchi 0x31#8 ∧
    decodeWire { ctx .expectCrcLow 0#8 false with receivedCrc := 0x3100#16, payloadCrc := some 0x31C3#16 } 0xC3#8 =
      .clCrcloOk 0xC3#8 ∧
    decodeWire { ctx .expectCrcLow 0#8 false with receivedCrc := 0x3100#16, payloadCrc := some 0x31C3#16 } 0xC2#8 =
      .clCrcloBad 0xC2#8 ∧
    decodeWire (ctx .packetReady 0#8 false) 0x04#8 = .prIgnored 0x04#8 ∧
    decodeWire (ctx .success 0#8 false) 0x01#8 = .termIgnored 0x01#8 ∧
    decodeWire (ctx .failure 0#8 false) 0x04#8 = .termIgnored 0x04#8 := by decide

/-- WIRE_OUT8 (R71): three values, and no other is emitted. -/
theorem test_decode_outputs :
    decodeOutput RowCtx.reset 0b00000110#8 = .ok .ack ∧
    decodeOutput RowCtx.reset 0b01000011#8 = .ok .handshake ∧
    decodeOutput RowCtx.reset 0b00010111#8 = .ok .nackByte ∧
    decodeOutput { RowCtx.reset with nackByte := 0x15#8 } 0x15#8 = .ok .nackByte ∧
    decodeOutput { RowCtx.reset with nackByte := 0x15#8 } 0x17#8 = .error (.notEmitted 0x17#8) := ⟨rfl, rfl, rfl, rfl, rfl⟩

/-- STATE4 (R81): nine codes; 9 to 15 are never returned. -/
theorem test_decode_state_codes :
    decodeStateCode 0b0000#4 = .ok .stateAwaitHandshakeOrHeader ∧ decodeStateCode 0b0001#4 = .ok .stateExpectBlockNum ∧
    decodeStateCode 0b0010#4 = .ok .stateExpectBlockNumComplement ∧
    decodeStateCode 0b0011#4 = .ok .stateReceivingData ∧ decodeStateCode 0b0100#4 = .ok .stateExpectCrcHigh ∧
    decodeStateCode 0b0101#4 = .ok .stateExpectCrcLow ∧ decodeStateCode 0b0110#4 = .ok .statePacketReady ∧
    decodeStateCode 0b0111#4 = .ok .stateSuccess ∧ decodeStateCode 0b1000#4 = .ok .stateFailure ∧
    decodeStateCode 0b1001#4 = .error (.noSuchState 9#4) ∧
    decodeStateCode 0b1111#4 = .error (.noSuchState 15#4) := ⟨rfl, rfl, rfl, rfl, rfl, rfl, rfl, rfl, rfl, rfl, rfl⟩

/-- The words of P4 and P1 (spec/95_test_vectors.md) through the host's entry points. -/
theorem test_table_words :
    decodeTableWord 40 0x10001869F = some (.tick 99999#32) ∧ decodeTableWord 40 0x0000000FE = some (.feed 0xFE#8) ∧
    decodeTableWord 8 0x02 = some .awHdrExt ∧ decodeTableWord 40 0x800000000 = none := by decide

theorem test_fetch_word_runs_next :
    ran (step (State.reset.withFetchWord 40 0x000000001)) (fun t => t.state == .expectBlockNum && t.input == []) = true ∧
    ran (step (State.reset.withFetchWord 8 0x04)) (fun t => t.state == .success && t.tx == [0x06#8]) = true := by decide

/-! ## The CRC engine -/

/-- V-C10, V-C12, V-C14. -/
theorem test_crc_update :
    crc16Update 0x0000#16 0x41#8 = 0x58E5#16 ∧ crc16Update 0xFFFF#16 0x00#8 = 0xE1F0#16 ∧
    crc16Update 0x1021#16 0x10#8 = 0x2100#16 := by decide

/-- V-K2, V-K4. -/
theorem test_crc_fold :
    crc16 [0x31#8, 0x32#8, 0x33#8, 0x34#8, 0x35#8, 0x36#8, 0x37#8, 0x38#8, 0x39#8] = 0x31C3#16 ∧
    crc16 [0xFF#8, 0xFF#8] = 0x1D0F#16 := by decide +kernel

/-! ## FEED and its rows -/

/-- V-F1, from reset. -/
theorem test_feed_header :
    ran (exec (.feed 0x01#8) State.reset) (fun t =>
      t.state == .expectBlockNum && t.packetSize == 128#11 && t.tx == [] && t.response == some (.feed false)) = true := by
  decide

/-- V-F30 with the payload of V-K4: a duplicate with a bad CRC. -/
theorem test_feed_duplicate_bad_crc :
    ran (exec (.feed 0x0E#8)
        { short .expectCrcLow with expectedBlock := 1#8, isDuplicateBlock := true, receivedCrc := 0x1D00#16 }) (fun t =>
      t.state == .awaitHandshakeOrHeader && t.receivedCrc == 0x1D0E#16 && t.computedCrc == 0x1D0F#16 &&
      t.errorCount == 1#8 && t.isDuplicateBlock && t.tx == [0x17#8]) = true := by decide +kernel

/-- V-F7: the fill position of an earlier packet is cleared. -/
theorem test_aw_hdr_std :
    ran (exec .awHdrStd { at_ .awaitHandshakeOrHeader with packetSize := 1024#11, fillPosition := 1024#11, currentTime := 9#32 })
      (fun t => t.state == .expectBlockNum && t.packetSize == 128#11 && t.fillPosition == 0#11 &&
        t.lastActivityTime == 9#32) = true := by decide

/-- V-F2. -/
theorem test_aw_hdr_ext :
    ran (exec .awHdrExt State.reset) (fun t => t.state == .expectBlockNum && t.packetSize == 1024#11) = true := by decide

/-- V-F3; the stamp is not written (R129). -/
theorem test_aw_eot :
    ran (exec .awEot { State.reset with currentTime := 9#32 }) (fun t =>
      t.state == .success && t.tx == [0x06#8] && t.lastActivityTime == 0#32) = true := by decide

/-- V-F6; the stamp is not written (R129). -/
theorem test_aw_noise :
    ran (exec (.awNoise 0x18#8) { State.reset with currentTime := 9#32 }) (fun t =>
      t.state == .awaitHandshakeOrHeader && t.tx == [] && t.lastActivityTime == 0#32) = true := by decide

/-- V-F16: the wrap. -/
theorem test_bn_next :
    ran (exec (.bnNext 0x00#8) (atBlock .expectBlockNum 255#8 true)) (fun t =>
      t.state == .expectBlockNumComplement && t.isDuplicateBlock == false && t.expectedBlock == 255#8) = true := by decide

/-- V-F14: the duplicate number, not a header. -/
theorem test_bn_dup :
    ran (exec (.bnDup 0x01#8) (atBlock .expectBlockNum 1#8 false)) (fun t =>
      t.state == .expectBlockNumComplement && t.isDuplicateBlock) = true := by decide

/-- A row whose condition fails acts as the byte's own class does: V-F8, the candidate. -/
theorem test_bn_dup_of_another_class :
    ran (exec (.bnDup 0x01#8) (atBlock .expectBlockNum 0#8 true)) (fun t =>
      t.state == .expectBlockNumComplement && t.isDuplicateBlock == false) = true := by decide

/-- V-F10. -/
theorem test_bn_hdr :
    ran (exec (.bnHdr 2#2) (atBlock .expectBlockNum 0#8 false)) (fun t =>
      t.state == .expectBlockNum && t.packetSize == 1024#11) = true := by decide

/-- V-F11: no end-of-transmission here. -/
theorem test_bn_other :
    ran (exec (.bnOther 0x04#8) (atBlock .expectBlockNum 0#8 false)) (fun t =>
      t.state == .awaitHandshakeOrHeader && t.tx == []) = true := by decide

/-- V-F20: the complement of an accepted duplicate. -/
theorem test_bc_match :
    ran (exec (.bcMatch 0xFF#8) { atBlock .expectBlockNumComplement 0#8 true with fillPosition := 7#11 }) (fun t =>
      t.state == .receivingData && t.fillPosition == 0#11) = true := by decide

/-- V-F24. -/
theorem test_bc_hdr :
    ran (exec (.bcHdr 1#2) { atBlock .expectBlockNumComplement 0#8 false with packetSize := 1024#11 }) (fun t =>
      t.state == .expectBlockNum && t.packetSize == 128#11) = true := by decide

/-- V-F25. -/
theorem test_bc_other :
    ran (exec (.bcOther 0xFF#8) (atBlock .expectBlockNumComplement 0#8 false)) (fun t =>
      t.state == .awaitHandshakeOrHeader && t.tx == []) = true := by decide

/-- V-F26: the last payload byte. -/
theorem test_rd_data_last :
    ran (exec (.rdData 0xAB#8) { at_ .receivingData with fillPosition := 127#11, errorCount := 2#8 }) (fun t =>
      t.state == .expectCrcHigh && t.fillPosition == 128#11 && t.errorCount == 0#8 &&
      t.packetBuffer == [(127, 0xAB#8)]) = true := by decide

/-- V-F26b: the highest index. -/
theorem test_rd_data_highest :
    ran (exec (.rdData 0x01#8) { at_ .receivingData with packetSize := 1024#11, fillPosition := 1023#11 }) (fun t =>
      t.state == .expectCrcHigh && t.fillPosition == 1024#11 && t.packetBuffer == [(1023, 0x01#8)]) = true := by decide

/-- V-F26c. -/
theorem test_ch_crchi :
    ran (exec (.chCrchi 0x31#8) { at_ .expectCrcHigh with receivedCrc := 0x1234#16 }) (fun t =>
      t.state == .expectCrcLow && t.receivedCrc == 0x3100#16) = true := by decide

/-- V-F27 with the payload of V-K4: the high CRC byte was flipped. -/
theorem test_cl_crclo_bad_high :
    ran (exec (.clCrcloBad 0x0F#8) { short .expectCrcLow with receivedCrc := 0x9D00#16 }) (fun t =>
      t.state == .awaitHandshakeOrHeader && t.receivedCrc == 0x9D0F#16 && t.errorCount == 1#8 &&
      t.tx == [0x17#8]) = true := by decide +kernel

/-- V-F31 with the payload of V-K4: FEED does not enter FAILURE. -/
theorem test_cl_crclo_bad_counts :
    ran (exec (.clCrcloBad 0x01#8) { short .expectCrcLow with receivedCrc := 0x1D00#16, errorCount := 10#8 }) (fun t =>
      t.state == .awaitHandshakeOrHeader && t.errorCount == 11#8) = true := by decide +kernel

/-- V-F29 with the payload of V-K4. -/
theorem test_cl_crclo_ok :
    ran (exec (.clCrcloOk 0x0F#8) { short .expectCrcLow with receivedCrc := 0x1D00#16 }) (fun t =>
      t.state == .packetReady && t.blockSeen && t.tx == [] && t.response == some (.feed true)) = true := by
  decide +kernel

/-- V-F33: no SUCCESS. -/
theorem test_pr_ignored :
    ran (exec (.prIgnored 0x04#8) (at_ .packetReady)) (fun t =>
      t.state == .packetReady && t.tx == [] && t.response == some (.feed true)) = true := by decide

/-- V-F35. -/
theorem test_term_ignored :
    ran (exec (.termIgnored 0x04#8) (at_ .failure)) (fun t =>
      t.state == .failure && t.tx == [] && t.response == some (.feed false)) = true := by decide

/-! ## TICK -/

/-- V-T15: the stall that exceeds the maximum emits nothing and does not restart the timer. -/
theorem test_tick_fails :
    ran (exec (.tick 501#32) (ticking .awaitHandshakeOrHeader 0#32 10#8)) (fun t =>
      t.state == .failure && t.errorCount == 11#8 && t.currentTime == 501#32 && t.lastActivityTime == 0#32 &&
      t.tx == []) = true := by decide

/-- V-T19: 501 milliseconds across the wrap of the clock. -/
theorem test_tick_stalls_across_the_wrap :
    ran (exec (.tick 245#32) (ticking .awaitHandshakeOrHeader 0xFFFFFF00#32 0#8)) (fun t =>
      t.state == .awaitHandshakeOrHeader && t.errorCount == 1#8 && t.lastActivityTime == 245#32 &&
      t.tx == [0x43#8]) = true := by decide

/-! ## EXTRACT -/

/-- V-X5. -/
theorem test_extract_delivers :
    ran (exec .extract { ready false with currentTime := 9#32, lastActivityTime := 5#32 }) (fun t =>
      t.state == .awaitHandshakeOrHeader && t.expectedBlock == 1#8 && t.lastActivityTime == 9#32 && t.tx == [0x06#8] &&
      t.response == some (.delivered 0#8 128#11 zeroPayload)) = true := by decide +kernel

/-- V-X10: the discard of a duplicate keeps the count of errors. -/
theorem test_extract_discards :
    ran (exec .extract { ready true with expectedBlock := 4#8, errorCount := 3#8 }) (fun t =>
      t.state == .awaitHandshakeOrHeader && t.expectedBlock == 4#8 && t.errorCount == 3#8 && t.isDuplicateBlock &&
      t.tx == [0x06#8] && t.response == some .nothingAvailable) = true := by decide +kernel

/-! ## Queries, outputs, reserved codes -/

/-- V-Q9. -/
theorem test_qstate : ran (exec .qstate (at_ .failure)) (fun t => t.response == some (.stateCode 8#4)) = true := by
  decide

/-- V-Q7 and V-Q8. -/
theorem test_qfin :
    ran (exec .qfin (at_ .packetReady)) (fun t => t.response == some (.finished false)) = true ∧
    ran (exec .qfin (at_ .success)) (fun t => t.response == some (.finished true)) = true := by decide

/-- V-Q1 to V-Q9 through the rows STATE4. -/
theorem test_state_codes :
    ran (exec .stateAwaitHandshakeOrHeader (at_ .awaitHandshakeOrHeader))
      (fun t => t.response == some (.stateCode 0#4)) = true ∧
    ran (exec .stateExpectBlockNum (at_ .expectBlockNum)) (fun t => t.response == some (.stateCode 1#4)) = true ∧
    ran (exec .stateExpectBlockNumComplement (at_ .expectBlockNumComplement))
      (fun t => t.response == some (.stateCode 2#4)) = true ∧
    ran (exec .stateReceivingData (at_ .receivingData)) (fun t => t.response == some (.stateCode 3#4)) = true ∧
    ran (exec .stateExpectCrcHigh (at_ .expectCrcHigh)) (fun t => t.response == some (.stateCode 4#4)) = true ∧
    ran (exec .stateExpectCrcLow (at_ .expectCrcLow)) (fun t => t.response == some (.stateCode 5#4)) = true ∧
    ran (exec .statePacketReady (at_ .packetReady)) (fun t => t.response == some (.stateCode 6#4)) = true ∧
    ran (exec .stateSuccess (at_ .success)) (fun t => t.response == some (.stateCode 7#4)) = true ∧
    ran (exec .stateFailure (at_ .failure)) (fun t => t.response == some (.stateCode 8#4)) = true := by decide

/-- R71, with the configuration of V-T24. -/
theorem test_outputs :
    ran (exec .ack State.reset) (fun t => t.tx == [0x06#8]) = true ∧
    ran (exec .nackByte { State.reset with cfg := { Config.reference with nackByte := 0x15#8 } })
      (fun t => t.tx == [0x15#8]) = true ∧
    ran (exec .handshake State.reset) (fun t => t.tx == [0x43#8]) = true := by decide

/-- V-R1 to V-R3. -/
theorem test_reserved :
    step (State.reset.withFetchWord 40 0x500000000) = .refused (.reservedCommand 5#3) ∧
    step (State.reset.withFetchWord 40 0x600000000) = .refused (.reservedCommand 6#3) ∧
    step (State.reset.withFetchWord 40 0x7FFFFFFFF) = .refused (.reservedCommand 7#3) := ⟨rfl, rfl, rfl⟩

/-! ## Witnesses: for every obligation with hypotheses, a state and operands that meet them all -/

theorem zero_payload_crc : crc16 zeroPayload = 0x0000#16 := by
  have h : ∀ n, (List.replicate n 0#8).foldl crc16Update 0#16 = 0#16 := by
    intro n
    induction n with
    | zero => rfl
    | succ n ih => rw [List.replicate_succ, List.foldl_cons, show crc16Update 0#16 0#8 = 0#16 by decide]; exact ih
  exact h 128

theorem zeros_read : ∀ k, k < 128 → zeros.read k = .ok 0#8 := by decide +kernel

theorem zeroPayload_length : zeroPayload.length = 128 := List.length_replicate

theorem full_holds (f : FsmState) : HoldsPayload (full f) zeroPayload := by
  refine ⟨zeroPayload_length, fun k h => ?_⟩
  rw [show zeroPayload[k] = 0#8 from List.getElem_replicate _]
  exact zeros_read k (zeroPayload_length ▸ h)

theorem full_payload (f : FsmState) : (full f).payload = .ok zeroPayload :=
  (State.payload_ok_iff _ _).mpr (full_holds f)

theorem witness_StepRunsTheDecodedInput :
    (∃ s w rest, State.input s = .command w :: rest ∧ opField w = 7#3) ∧
    (∃ s b rest, State.input s = .wireByte b :: rest ∧ b = 0xFF#8) ∧
    (∃ s rest, State.input s = .reset :: rest) ∧ (∃ s n rest, State.input s = .destination n :: rest) ∧
    0x7FFFFFFFF < 2 ^ 35 ∧ 255 < 256 :=
  ⟨⟨State.reset.present (.command 0x7FFFFFFFF#35), _, _, rfl, by decide⟩,
    ⟨State.reset.present (.wireByte 0xFF#8), _, _, rfl, rfl⟩, ⟨State.reset.present .reset, _, rfl⟩,
    ⟨State.reset.present (.destination 128), _, _, rfl⟩, by decide, by decide⟩

theorem witness_NoInputKeepsStateForever : State.reset.input = [] := rfl

theorem witness_DecodeEncodeRoundTrip :
    (Instr.wf (.bnHdr 2#2) = true ∧ Instr.holdsIn (ctx .expectBlockNum 0#8 false) (.bnHdr 2#2) = true) ∧
    (Instr.wf .nackByte = true ∧ Instr.holdsIn RowCtx.reset .nackByte = true ∧
      RowCtx.reset.nackByte ≠ 0x06#8 ∧ RowCtx.reset.nackByte ≠ 0x43#8) := by decide

theorem witness_InputClassRowsActAsFeed : encode 0x17#8 (.rdData 0xFF#8) = .wireIn8 0xFF#8 := rfl

theorem witness_FeedHeaderMarkerStartsAPacket : State.reset.state = .awaitHandshakeOrHeader := rfl

theorem witness_FeedEndOfTransmissionSucceeds :
    State.reset.state = .awaitHandshakeOrHeader ∧
    ∃ t, exec .awEot State.reset = .next t ∧ t.state = .success ∧ State.reset.state ≠ .success :=
  ⟨rfl, _, rfl, rfl, by decide⟩

theorem witness_FeedNoiseIsIgnored :
    State.reset.state = .awaitHandshakeOrHeader ∧ 0x03#8 ≠ 0x01#8 ∧ 0x03#8 ≠ 0x02#8 ∧ 0x03#8 ≠ 0x04#8 := by decide

theorem witness_FeedNextBlockNumberIsAccepted :
    (atBlock .expectBlockNum 255#8 false).state = .expectBlockNum ∧
    0x00#8 = (atBlock .expectBlockNum 255#8 false).expectedBlock + 1#8 := by decide

theorem witness_FeedDuplicateBlockNumberIsAccepted :
    (atBlock .expectBlockNum 255#8 false).state = .expectBlockNum ∧
    0xFF#8 ≠ (atBlock .expectBlockNum 255#8 false).expectedBlock + 1#8 ∧
    0xFF#8 = (atBlock .expectBlockNum 255#8 false).expectedBlock := by decide

theorem witness_FeedOtherBlockNumberResynchronises :
    (at_ .expectBlockNum).state = .expectBlockNum ∧
    ((2#2 : BitVec 2).setWidth 8 ≠ (at_ .expectBlockNum).expectedBlock + 1#8 ∧
      (2#2 : BitVec 2).setWidth 8 ≠ (at_ .expectBlockNum).expectedBlock) ∧
    (0x03#8 ≠ (at_ .expectBlockNum).expectedBlock + 1#8 ∧ 0x03#8 ≠ (at_ .expectBlockNum).expectedBlock ∧
      0x03#8 ≠ 0x01#8 ∧ 0x03#8 ≠ 0x02#8) := by decide

theorem witness_FeedComplementOpensThePayload :
    (atBlock .expectBlockNumComplement 254#8 false).state = .expectBlockNumComplement ∧
    0x00#8 = 0xFF#8 - (if (atBlock .expectBlockNumComplement 254#8 false).isDuplicateBlock then 254#8
      else 254#8 + 1#8) := by decide

theorem witness_FeedWrongComplementResynchronises :
    (at_ .expectBlockNumComplement).state = .expectBlockNumComplement ∧
    ((1#2 : BitVec 2).setWidth 8 ≠ 0xFF#8 - (0#8 + 1#8)) ∧
    (0xFF#8 ≠ 0xFF#8 - (0#8 + 1#8) ∧ 0xFF#8 ≠ 0x01#8 ∧ 0xFF#8 ≠ 0x02#8) := by decide

/-- A state whose next payload byte goes to the highest index, 1023. -/
def lastByte : State := { at_ .receivingData with packetSize := 1024#11, fillPosition := 1023#11 }

theorem witness_FeedStoresAPayloadByte : lastByte.state = .receivingData ∧ lastByte.fillPosition.toNat < 1024 := by
  decide

/-- A payload whose last byte alone, index 127, was never written. -/
def lacking (f : FsmState) : State := { at_ f with packetBuffer := (List.range 127).map fun k => (k, 0#8) }

theorem lacking_read : ∀ k, k < 127 → (lacking .expectCrcLow).packetBuffer.read k = .ok 0#8 := by decide +kernel

theorem lacking_last : (lacking .expectCrcLow).packetBuffer.read 127 = .error (.bufferByteUnwritten 127) := by
  decide +kernel

theorem witness_MissingBufferBytesFault :
    (({ lastByte with fillPosition := 1024#11 } : State).state = .receivingData ∧
      1024 ≤ ({ lastByte with fillPosition := 1024#11 } : State).fillPosition.toNat) ∧
    (127 < (lacking .expectCrcLow).packetSize.toNat ∧ 127 < 1024 ∧
      (∀ j, j < 127 → ∃ b, (lacking .expectCrcLow).packetBuffer.read j = .ok b) ∧
      (lacking .expectCrcLow).packetBuffer.read 127 = .error (.bufferByteUnwritten 127) ∧
      (lacking .expectCrcLow).state = .expectCrcLow) ∧
    ((lacking .packetReady).state = .packetReady ∧ (lacking .packetReady).isDuplicateBlock = false ∧
      (lacking .packetReady).packetSize.toNat ≤ (lacking .packetReady).destCapacity ∧
      (lacking .packetReady).packetBuffer = (lacking .expectCrcLow).packetBuffer) :=
  ⟨by decide, ⟨by decide, by decide, fun j h => ⟨0#8, lacking_read j h⟩, lacking_last, rfl⟩, rfl, rfl, by decide, rfl⟩

theorem witness_FeedHighCrcByteIsLatched : (at_ .expectCrcHigh).state = .expectCrcHigh := rfl

theorem witness_FeedCrcMismatchIsNacked :
    (full .expectCrcLow).state = .expectCrcLow ∧ HoldsPayload (full .expectCrcLow) zeroPayload ∧
    (full .expectCrcLow).receivedCrc ||| (0x01#8).setWidth 16 ≠ crc16 zeroPayload :=
  ⟨rfl, full_holds _, by rw [zero_payload_crc]; decide⟩

theorem witness_FeedCrcMatchMakesThePacketReady :
    (full .expectCrcLow).state = .expectCrcLow ∧ HoldsPayload (full .expectCrcLow) zeroPayload ∧
    (full .expectCrcLow).receivedCrc ||| (0x00#8).setWidth 16 = crc16 zeroPayload :=
  ⟨rfl, full_holds _, by rw [zero_payload_crc]; decide⟩

theorem witness_FeedIsIgnoredWhileAPacketWaits : (ready false).state = .packetReady := rfl

theorem witness_FeedIsIgnoredInTerminalStates :
    ((at_ .success).state = .success ∨ (at_ .success).state = .failure) ∧
    ((at_ .failure).state = .success ∨ (at_ .failure).state = .failure) := ⟨.inl rfl, .inr rfl⟩

theorem witness_FeedAnswersWhetherAPacketIsReady : ∃ t, exec (.feed 0x01#8) State.reset = .next t := ⟨_, rfl⟩

theorem witness_TickIsANoOpInTerminalStates :
    ((at_ .success).state = .success ∨ (at_ .success).state = .failure) ∧
    ((at_ .failure).state = .success ∨ (at_ .failure).state = .failure) := ⟨.inl rfl, .inr rfl⟩

theorem witness_FirstTickInitiatesTheHandshake :
    State.reset.state ≠ .success ∧ State.reset.state ≠ .failure ∧ State.reset.timeValid = false := by decide

theorem witness_TickWhileAPacketWaitsLatchesTheTime :
    (ticking .packetReady 5#32 0#8).state = .packetReady ∧ (ticking .packetReady 5#32 0#8).timeValid = true := by
  decide

/-- V-T7 and V-T9: exactly the interval, in each phase. -/
theorem witness_TickWithinTheIntervalOnlyLatches :
    (∃ s now, s = ticking .awaitHandshakeOrHeader 100#32 10#8 ∧ now = 600#32 ∧ s.state = .awaitHandshakeOrHeader ∧
      s.blockSeen = false ∧ s.timeValid = true ∧ (now - s.lastActivityTime).toNat ≤ s.cfg.handshakeIntervalMs ∧
      s.errorCount.toNat ≤ s.cfg.maxErrors.val) ∧
    (∃ s now, s = ticking .receivingData 7#32 10#8 ∧ now = 1007#32 ∧ s.state = .receivingData ∧ s.timeValid = true ∧
      (now - s.lastActivityTime).toNat ≤ s.cfg.retryIntervalMs ∧ s.errorCount.toNat ≤ s.cfg.maxErrors.val) :=
  ⟨⟨_, _, rfl, rfl, by decide⟩, ⟨_, _, rfl, rfl, by decide⟩⟩

/-- V-T8 and V-T12 at the last error that is not too many. -/
theorem witness_TickStallResendsTheControlByte :
    (∃ s now, s = ticking .awaitHandshakeOrHeader 100#32 9#8 ∧ now = 601#32 ∧ s.state = .awaitHandshakeOrHeader ∧
      s.blockSeen = false ∧ s.timeValid = true ∧ s.cfg.handshakeIntervalMs < (now - s.lastActivityTime).toNat ∧
      (s.errorCount + 1#8).toNat ≤ s.cfg.maxErrors.val) ∧
    (∃ s now, s = ticking .expectBlockNum 0#32 9#8 ∧ now = 1001#32 ∧ s.state = .expectBlockNum ∧ s.timeValid = true ∧
      s.cfg.retryIntervalMs < (now - s.lastActivityTime).toNat ∧
      (s.errorCount + 1#8).toNat ≤ s.cfg.maxErrors.val) :=
  ⟨⟨_, _, rfl, rfl, by decide⟩, ⟨_, _, rfl, rfl, by decide⟩⟩

/-- V-T15, and P10's fifth line. -/
theorem witness_TickBeyondMaxErrorsFails :
    (∃ s now, s = ticking .awaitHandshakeOrHeader 0#32 10#8 ∧ now = 501#32 ∧ s.state = .awaitHandshakeOrHeader ∧
      s.timeValid = true ∧ s.cfg.handshakeIntervalMs < (now - s.lastActivityTime).toNat ∧
      s.cfg.maxErrors.val < (s.errorCount + 1#8).toNat) ∧
    (∃ s now, s = ticking .awaitHandshakeOrHeader 1001#32 11#8 ∧ now = 1002#32 ∧ s.state = .awaitHandshakeOrHeader ∧
      s.timeValid = true ∧ (now - s.lastActivityTime).toNat ≤ s.cfg.handshakeIntervalMs ∧
      s.cfg.maxErrors.val < s.errorCount.toNat) :=
  ⟨⟨_, _, rfl, rfl, by decide⟩, ⟨_, _, rfl, rfl, by decide⟩⟩

theorem witness_ExtractWithoutAPacketChangesNothing : State.reset.state ≠ .packetReady := by decide

theorem ready_holds (d : Bool) : HoldsPayload (ready d) zeroPayload := full_holds .packetReady

/-- A destination of exactly the packet's size. -/
theorem witness_ExtractDeliversANewBlock :
    ∃ s : State, s = { ready false with destCapacity := 128 } ∧ s.state = .packetReady ∧ s.isDuplicateBlock = false ∧
      s.packetSize.toNat ≤ s.destCapacity ∧ HoldsPayload s zeroPayload :=
  ⟨_, rfl, rfl, rfl, by decide, ready_holds false⟩

theorem witness_ExtractDiscardsADuplicate : (ready true).state = .packetReady ∧ (ready true).isDuplicateBlock = true :=
  ⟨rfl, rfl⟩

/-- A destination one byte too small. -/
theorem witness_ExtractRefusesASmallDestination :
    ∃ s : State, s = { ready false with destCapacity := 127 } ∧ s.state = .packetReady ∧ s.isDuplicateBlock = false ∧
      s.destCapacity < s.packetSize.toNat :=
  ⟨_, rfl, rfl, rfl, by decide⟩

theorem witness_StateCodeRowsAnswerTheirCode :
    ((Instr.stateAwaitHandshakeOrHeader, FsmState.awaitHandshakeOrHeader, 0#4) ∈
        [(Instr.stateAwaitHandshakeOrHeader, FsmState.awaitHandshakeOrHeader, 0#4),
         (Instr.stateFailure, FsmState.failure, 8#4)] ∧
      (at_ .awaitHandshakeOrHeader).state = .awaitHandshakeOrHeader) ∧
    ((Instr.stateFailure, FsmState.failure, 8#4) ∈
        [(Instr.stateAwaitHandshakeOrHeader, FsmState.awaitHandshakeOrHeader, 0#4),
         (Instr.stateFailure, FsmState.failure, 8#4)] ∧
      (at_ .failure).state = .failure) := by decide

theorem witness_AtMostOneControlByteIsEmitted :
    ∃ t, exec .awEot State.reset = .next t ∧ t.tx = [0x06#8] := ⟨_, rfl, rfl⟩

theorem witness_OperationsKeepTheWriteMatrix :
    (∃ t, exec (.feed 0x02#8) State.reset = .next t) ∧ (∃ t, exec (.tick 0xFFFFFFFF#32) State.reset = .next t) ∧
    (∃ t, exec .extract State.reset = .next t) ∧ (∃ t, exec .qstate State.reset = .next t) ∧
    (∃ t, exec .qfin State.reset = .next t) := ⟨⟨_, rfl⟩, ⟨_, rfl⟩, ⟨_, rfl⟩, ⟨_, rfl⟩, ⟨_, rfl⟩⟩

theorem ready_delivers : exec .extract (ready false) = .next ((ready false).clearPorts.delivered zeroPayload) := by
  have hp : (ready false).clearPorts.payload = .ok zeroPayload := full_payload .packetReady
  have hd : (ready false).clearPorts.deliver = .next ((ready false).clearPorts.delivered zeroPayload) := by
    unfold State.deliver
    rw [hp]
    rfl
  simp only [exec, execExtract, State.extractArms]
  rw [if_neg (by decide), if_pos (by decide)]
  exact hd

theorem witness_ExpectedBlockAdvancesOnlyOnDelivery : ∃ t, exec .extract (ready false) = .next t :=
  ⟨_, ready_delivers⟩

theorem witness_TerminalSessionsChangeOnlyByReset :
    (∃ t, exec .qfin State.reset = .next t) ∧
    (∃ s t, (State.state s = .success ∨ State.state s = .failure) ∧ step s = .next t ∧ s.input = [.reset]) ∧
    (∃ s t, (State.state s = .success ∨ State.state s = .failure) ∧ step s = .next t ∧ s.input = []) :=
  ⟨⟨_, rfl⟩, ⟨(at_ .failure).present .reset, _, .inr rfl, rfl, rfl⟩, ⟨at_ .success, _, .inl rfl, rfl, rfl⟩⟩

theorem witness_WaitingPacketIsLeftOnlyByExtract :
    (ready false).state = .packetReady ∧ (∃ t, exec .extract (ready false) = .next t) ∧
    ∃ t, exec (.feed 0x04#8) (ready false) = .next t := ⟨rfl, ⟨_, ready_delivers⟩, _, rfl⟩

theorem witness_BufferIsWrittenOnlyByPayloadBytes :
    ∃ t, exec (.rdData 0x01#8) lastByte = .next t ∧ t.packetBuffer ≠ lastByte.packetBuffer := ⟨_, rfl, by decide⟩

theorem witness_FlagsChangeOnlyByTheirRules :
    (∃ t, exec (.feed 0x00#8) (at_ .expectBlockNum) = .next t ∧ t.isDuplicateBlock = true) ∧
    (∃ t, exec (.tick 0#32) State.reset = .next t ∧ t.timeValid = true) := ⟨⟨_, rfl, rfl⟩, _, rfl, rfl⟩

theorem ran_next {r : Result} {check : State → Bool} (h : ran r check = true) : ∃ t, r = .next t ∧ check t = true := by
  cases r with
  | next t => exact ⟨t, rfl, h⟩
  | fault f => cases h
  | refused f => cases h

/-- A CRC mismatch on the payload of V-K4. -/
theorem short_mismatch : ∃ t, exec (.feed 0x01#8) (short .expectCrcLow) = .next t ∧ t.events = [.crcMismatch] :=
  (ran_next (check := fun t => decide (t.events = [.crcMismatch])) (by decide +kernel)).imp fun _ h =>
    ⟨h.1, of_decide_eq_true h.2⟩

theorem witness_ErrorCountFollowsItsEvents :
    (∃ t, exec .qstate { lastByte with errorCount := 3#8 } = .next t ∧ t.errorCount = 3#8) ∧
    (∃ t, exec (.rdData 0x00#8) { lastByte with errorCount := 3#8 } = .next t ∧ t.errorCount = 0#8) ∧
    (∃ t, exec .extract (ready false) = .next t ∧ t.response = some (.delivered 0#8 128#11 zeroPayload)) ∧
    (∃ t, exec (.feed 0x01#8) (short .expectCrcLow) = .next t ∧ t.events = [.crcMismatch]) ∧
    (∃ t, exec (.tick 501#32) (ticking .awaitHandshakeOrHeader 0#32 0#8) = .next t ∧ t.errorCount = 1#8) :=
  ⟨⟨_, rfl, by decide⟩, ⟨_, rfl, by decide⟩, ⟨_, ready_delivers, rfl⟩, short_mismatch,
    _, rfl, by decide⟩

theorem witness_FailureIsEnteredOnlyByExcessErrors :
    (∃ t, (ticking .awaitHandshakeOrHeader 0#32 10#8).state ≠ .failure ∧
      (ticking .awaitHandshakeOrHeader 0#32 10#8).active = true ∧
      (ticking .awaitHandshakeOrHeader 0#32 10#8).timeValid = true ∧
      exec (.tick 501#32) (ticking .awaitHandshakeOrHeader 0#32 10#8) = .next t ∧ t.state = .failure ∧
      t.cfg.maxErrors.val < t.errorCount.toNat) ∧
    (at_ .failure).state = .failure := ⟨⟨_, by decide, rfl, rfl, rfl, by decide, by decide⟩, rfl⟩

/-- 20_memory.md R65: a byte handed to the sink is there once, whatever the caller supplies after it. -/
theorem test_emitted_byte_counts_once :
    emittedBy [feedInput 0x04#8, .destination 10, .reset, tickInput 7#32] State.reset = [0x06#8, 0x43#8] := by decide

/-- 00_scope.md R7: the table's values, and an OPEN parameter set by itself. -/
theorem test_config_fields :
    ({ Config.reference with maxErrors := 0 }).bufCap = 1024 ∧ ({ Config.reference with maxErrors := 0 }).wTime = 32 ∧
    Config.reference.sizeExt.toNat = 1024 ∧ Config.reference.handshake = 0x43#8 ∧ Config.reference.crcPoly = 0x1021#16 ∧
    Config.reference.nackByte = 0x17#8 := ⟨rfl, rfl, rfl, rfl, rfl, rfl⟩

/-- The invariant holds of a waiting packet, not only of the reset state. -/
theorem ready_inv : Inv (ready false) where
  bufferCanonical := by decide +kernel
  sizeLegal := .inl rfl
  fillBounded := by decide
  roomWhileReceiving h := by cases h
  fullWhenComplete _ := rfl
  filledIsWritten i h := ⟨0#8, zeros_read i h⟩
  lowHalfClear h := by cases h
  readyMatched _ := by
    refine ⟨rfl, ?_⟩
    have h : (ready false).payloadCrc = some (crc16 zeroPayload) := State.payloadCrc_of_ok (full_payload .packetReady)
    rw [h, zero_payload_crc]
    rfl
  readySeen _ := rfl
  unseenUndelivered h := by cases h
  errorsBounded := by decide
  clockUnset _ := ⟨rfl, rfl⟩

/-- The step that delivers a waiting packet. -/
theorem witness_EveryStepKeepsTheInvariant :
    Inv ((ready false).present extractInput) ∧ ∃ t, step ((ready false).present extractInput) = .next t :=
  ⟨ready_inv.present _, _, (step_present_extractInput _).trans ready_delivers⟩

theorem witness_EveryOperationCompletes :
    Inv (ready false) ∧ (ready false).packetSize.toNat ≤ (ready false).destCapacity := ⟨ready_inv, by decide⟩

theorem witness_SingleByteChangeChangesTheCrc : 0x00#8 ≠ 0xFF#8 := by decide

theorem witness_WellFormedPacketIsDelivered :
    State.reset.state = .awaitHandshakeOrHeader ∧ zeroPayload.length = 128 ∧
    zeroPayload.length ≤ State.reset.destCapacity ∧ (List.replicate 1024 0#8).length = 1024 ∧
    (List.replicate 1024 0#8).length ≤ State.reset.destCapacity := by
  rw [zeroPayload_length, List.length_replicate]
  decide

theorem witness_RepeatedPacketIsDeliveredOnce :
    ∃ s : State, s = { State.reset with destCapacity := 128 } ∧ s.state = .awaitHandshakeOrHeader ∧
      zeroPayload.length = 128 ∧ zeroPayload.length ≤ s.destCapacity :=
  ⟨_, rfl, rfl, zeroPayload_length, zeroPayload_length.le⟩

theorem witness_CorruptedPacketIsNacked :
    State.reset.state = .awaitHandshakeOrHeader ∧ zeroPayload.length = 128 ∧ 0x8000#16 ≠ crc16 zeroPayload :=
  ⟨rfl, zeroPayload_length, by rw [zero_payload_crc]; decide⟩

/-- One stall is enough with `MAX_ERRORS` = 0 (V-T16). -/
theorem witness_StallsEndInFailure :
    ∃ s : State, s = { ticking .awaitHandshakeOrHeader 0#32 0#8 with cfg := { Config.reference with maxErrors := 0 } } ∧
      s.active = true ∧ s.timeValid = true ∧ s.errorCount = 0#8 ∧ [501#32].length = s.cfg.maxErrors.val + 1 ∧
      List.IsChain (fun a b : Time => s.interval < (b - a).toNat) (s.lastActivityTime :: [501#32]) :=
  ⟨_, rfl, rfl, rfl, rfl, rfl, by decide⟩

end Sys2Proof.Tests
end

section
/-! The block counter (10_state.md R39): byte intake and a TICK leave `expected_block`, and EXTRACT advances it exactly
where it delivers. -/

namespace Sys2Proof.Machine

open Sys2Proof

/-- No arm of byte intake writes `expected_block` (41_feed_byte.md R111 to R126). -/
theorem FeedArm.expectedBlock_eq {s u : State} {b : Byte} (h : FeedArm s b u) : u.expectedBlock = s.expectedBlock := by
  cases h with
  | data => rw [State.dataStored_eq]
  | awHeader | awEot | awNoise | bnNext | bnDup | bnHeader | bnOther | bcMatch | bcHeader | bcOther | crcHigh | crcBad
  | crcOk | ignored => rfl

/-- No arm of a TICK writes `expected_block` (42_tick.md R141 to R148), and none answers (30_encoding.md R83). -/
theorem TickArm.expectedBlock_response_eq {s t : State} {now : Time} (h : TickArm s now t) :
    t.expectedBlock = s.expectedBlock ∧ t.response = s.response := by
  cases h with
  | first => rw [State.tickFirst_eq]; exact ⟨rfl, rfl⟩
  | terminal | holding | quiet | quietFails | resends | stallFails => exact ⟨rfl, rfl⟩

/-- EXTRACT leaves `expected_block` and answers that nothing is available, or advances it and delivers the old number
of a waiting packet that is no duplicate. -/
theorem ExtractArm.expectedBlock_cases {s t : State} (h : ExtractArm s t) :
    (t.expectedBlock = s.expectedBlock ∧ t.response = some .nothingAvailable) ∨
    (t.expectedBlock = s.expectedBlock + 1#8 ∧ s.state = .packetReady ∧ s.isDuplicateBlock = false ∧
      ∃ len p, t.response = some (.delivered s.expectedBlock len p)) := by
  cases h with
  | nothing => exact .inl ⟨rfl, rfl⟩
  | deliver p hs hd => exact .inr ⟨rfl, hs, hd, s.packetSize, p, rfl⟩
  | discard => exact .inl ⟨rfl, rfl⟩

end Sys2Proof.Machine

namespace Sys2Proof.Proofs

open Sys2Proof Sys2Proof.Machine

/-- Settles O43, by the cases of `exec_next`: of all that an instruction can do, only EXTRACT touches the number. -/
theorem expectedBlockAdvancesOnlyOnDelivery : Obligations.ExpectedBlockAdvancesOnlyOnDelivery := by
  intro i s t h
  rcases exec_next h with ⟨b, -, u, hu, rfl⟩ | ⟨now, -, ht⟩ | ⟨rfl, hx⟩ | ⟨-, -, b, -, rfl⟩ | ⟨-, -, r, hr, rfl⟩
  · exact .inl ⟨hu.expectedBlock_eq, by simp⟩
  · obtain ⟨he, hr⟩ := ht.expectedBlock_response_eq
    exact .inl ⟨he, by simp [hr]⟩
  · rcases hx.expectedBlock_cases with ⟨he, hr⟩ | ⟨he, hs, hd, hr⟩
    · exact .inl ⟨he, by simp [hr]⟩
    · exact .inr ⟨he, rfl, hs, hd, hr⟩
  · exact .inl ⟨rfl, by simp⟩
  · refine .inl ⟨rfl, fun n len p => ?_⟩
    rcases hr with ⟨c, rfl⟩ | ⟨y, rfl⟩ <;> simp

end Sys2Proof.Proofs
end

section
/-! The idle block (20_memory.md R68): a step without a pending input changes nothing, and a run of such steps neither. -/

namespace Sys2Proof.Machine

open Sys2Proof

/-- Of the cases of `step_cases`, only the idle one has no input pending. -/
theorem step_of_input_nil {s : State} (h : s.input = []) : step s = .next s := by
  rcases step_cases s with ⟨-, hs⟩ | ⟨i, rest, -, hi, -⟩ | ⟨i, rest, hi, -⟩
  · exact hs
  · cases h.symm.trans hi
  · cases h.symm.trans hi

/-- A run whose first step answers `t` goes on from `t`. -/
theorem run_succ_of_step_next {M : Host.Core} {s t : M.State} (h : M.step s = .next t) (k : Nat) :
    M.run (k + 1) s = M.run k t := by
  rw [Host.Core.run, h]

end Sys2Proof.Machine

namespace Sys2Proof.Proofs

open Sys2Proof Sys2Proof.Machine

/-- Settles O2, by induction on the number of steps: the first one answers the same idle state. -/
theorem noInputKeepsStateForever : Obligations.NoInputKeepsStateForever := by
  intro s k h
  induction k with
  | zero => rfl
  | succ k ih => exact (run_succ_of_step_next (M := Sys2Proof.core) (step_of_input_nil h) k).trans ih

end Sys2Proof.Proofs
end

section
/-! The CRC engine (40_crc16.md R100, R101): its shifts as the iterate of one, and a byte's entry into bits 15:8. -/

namespace Sys2Proof.Machine

open Sys2Proof

/-- The shifts of the model are the library's iterate of one shift. -/
theorem crcShifts_eq_iterate (n : Nat) (c : Crc) : crcShifts n c = crcShift^[n] c := by
  induction n generalizing c with
  | zero => rfl
  | succ n ih => rw [crcShifts_succ, ih, Function.iterate_succ_apply]

/-- A shift reads bit 15 as the register's top bit and folds in the polynomial 0x1021. -/
theorem crcShift_eq_msb (c : Crc) : crcShift c = if c.msb then (c <<< 1) ^^^ 0x1021#16 else c <<< 1 := by
  rw [crcShift, crcPoly_eq, BitVec.msb_eq_getLsbD_last]

/-- A byte over a zero byte is the byte moved into bits 15:8. -/
theorem append_zero_byte_eq_shiftLeft (b : Byte) : b ++ 0x00#8 = (b.setWidth 16 <<< 8 : BitVec 16) := by
  simpa using BitVec.setWidth_append_eq_shiftLeft_setWidth_or (w'' := 16) (b := b) (b' := 0x00#8)

end Sys2Proof.Machine

namespace Sys2Proof.Proofs

open Sys2Proof Sys2Proof.Machine

/-- Settles O53: the update is `crcShifts_eq_iterate` at the model's own shift, the fold its two laws. -/
theorem crcIsTheFoldOfItsUpdate : Obligations.CrcIsTheFoldOfItsUpdate := by
  refine ⟨fun c b => ?_, crc16_nil.trans crcSeed_eq, crc16_append_singleton⟩
  rw [crc16Update, crcShifts_eq_iterate, append_zero_byte_eq_shiftLeft, funext crcShift_eq_msb]

end Sys2Proof.Proofs
end

section
/-! The response of byte intake (41_feed_byte.md R127): which arms leave the state PACKET_READY. -/

namespace Sys2Proof.Machine

open Sys2Proof Sys2Proof.Safety

/-- Reading the payload answers exactly the list that the buffer holds (20_memory.md R53). -/
theorem State.holdsPayload_iff_payload (s : State) (p : List Byte) : HoldsPayload s p ↔ s.payload = .ok p :=
  (s.payload_ok_iff p).symm

/-- The byte is the low CRC byte and completes the CRC of the buffered payload (41_feed_byte.md R124). -/
def State.CompletesCrc (s : State) (b : Byte) : Prop :=
  s.state = .expectCrcLow ∧ ∃ p, HoldsPayload s p ∧ s.receivedCrc ||| b.setWidth 16 = crc16 p

/-- Only the low CRC byte can complete a CRC. -/
theorem State.not_completesCrc {s : State} {b : Byte} (h : s.state ≠ .expectCrcLow) : ¬ s.CompletesCrc b :=
  fun ⟨hs, _⟩ => h hs

/-- Whether the byte completes the CRC is decided by the one payload that the buffer holds. -/
theorem State.completesCrc_iff {s : State} {b : Byte} {p : List Byte} (hs : s.state = .expectCrcLow)
    (hp : s.payload = .ok p) : s.CompletesCrc b ↔ s.receivedCrc ||| b.setWidth 16 = crc16 p := by
  simp [State.CompletesCrc, State.holdsPayload_iff_payload, hs, hp]

/-- Of the arms R111 to R126 only R124 enters PACKET_READY, and only R125 starts there, which stays. -/
theorem FeedArm.packetReady_iff {s u : State} {b : Byte} (h : FeedArm s b u) :
    u.state = .packetReady ↔ s.state = .packetReady ∨ s.CompletesCrc b := by
  cases h with
  | crcOk p hs hp hc => exact iff_of_true rfl (.inr ((State.completesCrc_iff hs hp).mpr hc))
  | crcBad p hs hp hc =>
    have hn : ¬ s.CompletesCrc b := mt (State.completesCrc_iff hs hp).mp hc
    simp [State.crcMismatch, hs, hn]
  | ignored hs =>
    have hn : ¬ s.CompletesCrc b := State.not_completesCrc (by rcases hs with hs | hs | hs <;> simp [hs])
    simp [hn]
  | data hs =>
    have hn : ¬ s.CompletesCrc b := State.not_completesCrc (by simp [hs])
    rw [State.dataStored_eq]
    by_cases hl : s.fillPosition + 1#11 = s.packetSize <;> simp [hs, hn, hl]
  | awHeader hs | awEot hs | awNoise hs | bnNext hs | bnDup hs | bnHeader hs | bnOther hs | bcMatch hs | bcHeader hs
  | bcOther hs | crcHigh hs =>
    have hn : ¬ s.CompletesCrc b := State.not_completesCrc (by simp [hs])
    exact iff_of_false nofun (by simp [hs, hn])

end Sys2Proof.Machine

namespace Sys2Proof.Proofs

open Sys2Proof Sys2Proof.Machine

/-- Settles O25, by `FeedArm.packetReady_iff`: the response is added to the arm's state, and clearing the ports before
the arm changes nothing that the CRC is made of. -/
theorem feedAnswersWhetherAPacketIsReady : Obligations.FeedAnswersWhetherAPacketIsReady := by
  intro s t b h
  obtain ⟨u, hu, rfl⟩ := State.feedByte_next h
  exact ⟨by simp [State.packetReady, beq_eq_decide], hu.packetReady_iff⟩

end Sys2Proof.Proofs
end

section
/-! The two queries (43_extract_and_queries.md R163, R164): each is one answer on cleared ports, and QFIN's flag is the
test for a terminal state. -/

namespace Sys2Proof.Machine

open Sys2Proof Sys2Proof.Safety

/-- An operation that does nothing but answer sets the ports alone: no byte, its response, no event. -/
theorem State.clearPorts_answer_eq_ports (s : State) (r : Response) :
    s.clearPorts.answer r = ports s [] (some r) [] := rfl

theorem State.finished_eq_decide (s : State) : s.finished = decide (s.state = .success ∨ s.state = .failure) :=
  Bool.eq_iff_iff.mpr (s.finished_iff.trans decide_eq_true_iff.symm)

theorem exec_qstate (s : State) : exec .qstate s = .next (s.clearPorts.answer (.stateCode s.state.code)) := rfl

theorem exec_qfin (s : State) : exec .qfin s = .next (s.clearPorts.answer (.finished s.finished)) := rfl

end Sys2Proof.Machine

namespace Sys2Proof.Proofs

open Sys2Proof Sys2Proof.Machine

/-- Settles O36: QSTATE is the answer of the state's code on cleared ports. -/
theorem qstateAnswersTheStateCode : Obligations.QstateAnswersTheStateCode := by
  intro s
  rw [exec_qstate, State.clearPorts_answer_eq_ports]

/-- Settles O37: QFIN is the answer of `finished` on cleared ports, which holds in the two terminal states alone. -/
theorem qfinAnswersWhetherFinished : Obligations.QfinAnswersWhetherFinished := by
  intro s
  rw [exec_qfin, State.clearPorts_answer_eq_ports, State.finished_eq_decide]

end Sys2Proof.Proofs
end

section
/-! The input classes (30_encoding.md R77): the decoder gives the one row that applies to a byte, and the words of the
other formats decode to their rows. -/

namespace Sys2Proof

/-- The row `i` applies to the byte `b` in the context `c` (30_encoding.md R77): the columns of its row hold, and its
word is that byte. -/
def Instr.AppliesTo (i : Instr) (c : RowCtx) (b : Byte) : Prop :=
  i.wf = true ∧ i.holdsIn c = true ∧ encode c.nackByte i = .wireIn8 b

/-- A byte that is no header marker, as the fallback rows BN_OTHER and BC_OTHER say it. -/
theorem isHeader_eq_false_iff (b : Byte) : isHeader b = false ↔ b ≠ 0x01#8 ∧ b ≠ 0x02#8 := by
  simp [isHeader, hdrStd, hdrExt]

/-! ### The classes, state by state -/

section DecodeWire

variable {c : RowCtx} (b : Byte)

theorem decodeWire_awaitHandshakeOrHeader (h : c.fsm = .awaitHandshakeOrHeader) :
    decodeWire c b = if b = hdrStd then .awHdrStd else if b = hdrExt then .awHdrExt
      else if b = eotByte then .awEot else .awNoise b := by
  simp only [decodeWire, h]

theorem decodeWire_expectBlockNum (h : c.fsm = .expectBlockNum) :
    decodeWire c b = if b = c.candidate then .bnNext b else if b = c.expectedBlock then .bnDup b
      else if isHeader b then .bnHdr (b.setWidth 2) else .bnOther b := by
  simp only [decodeWire, h]

theorem decodeWire_expectBlockNumComplement (h : c.fsm = .expectBlockNumComplement) :
    decodeWire c b = if b = c.complement then .bcMatch b
      else if isHeader b then .bcHdr (b.setWidth 2) else .bcOther b := by
  simp only [decodeWire, h]

theorem decodeWire_receivingData (h : c.fsm = .receivingData) : decodeWire c b = .rdData b := by
  simp only [decodeWire, h]

theorem decodeWire_expectCrcHigh (h : c.fsm = .expectCrcHigh) : decodeWire c b = .chCrchi b := by
  simp only [decodeWire, h]

theorem decodeWire_expectCrcLow (h : c.fsm = .expectCrcLow) :
    decodeWire c b = if c.crcMatches b then .clCrcloOk b else .clCrcloBad b := by
  simp only [decodeWire, h]

theorem decodeWire_packetReady (h : c.fsm = .packetReady) : decodeWire c b = .prIgnored b := by
  simp only [decodeWire, h]

theorem decodeWire_terminal (h : c.fsm = .success ∨ c.fsm = .failure) : decodeWire c b = .termIgnored b := by
  rcases h with h | h <;> simp only [decodeWire, h]

end DecodeWire

/-! ### The decoder gives the row that applies, and no other -/

/-- A row that applies to a byte is the decoder's: its conditions shut out the classes that are tested before it. -/
theorem Instr.AppliesTo.decodeWire_eq {i : Instr} {c : RowCtx} {b : Byte} (h : i.AppliesTo c b) :
    decodeWire c b = i := by
  obtain ⟨hw, hc, he⟩ := h
  cases i with
  | feed | tick | extract | qstate | qfin | reserved5 | reserved6 | reserved7 | ack | nackByte | handshake
  | stateAwaitHandshakeOrHeader | stateExpectBlockNum | stateExpectBlockNumComplement | stateReceivingData
  | stateExpectCrcHigh | stateExpectCrcLow | statePacketReady | stateSuccess | stateFailure => cases he
  | awHdrStd | awHdrExt | awEot =>
    cases he
    simp only [Instr.holdsIn, beq_iff_eq] at hc
    rw [decodeWire_awaitHandshakeOrHeader _ hc]
    rfl
  | awNoise =>
    cases he
    simp only [Instr.holdsIn, beq_iff_eq] at hc
    simp only [Instr.wf, Bool.and_eq_true, bne_iff_ne] at hw
    obtain ⟨⟨hstd : b ≠ hdrStd, hext : b ≠ hdrExt⟩, heot : b ≠ eotByte⟩ := hw
    rw [decodeWire_awaitHandshakeOrHeader _ hc, if_neg hstd, if_neg hext, if_neg heot]
  | bnNext =>
    cases he
    simp only [Instr.holdsIn, Bool.and_eq_true, beq_iff_eq] at hc
    rw [decodeWire_expectBlockNum _ hc.1, if_pos hc.2]
  | bnDup =>
    cases he
    simp only [Instr.holdsIn, Bool.and_eq_true, beq_iff_eq, bne_iff_ne] at hc
    obtain ⟨⟨hs, hn⟩, hd⟩ := hc
    rw [decodeWire_expectBlockNum _ hs, if_neg hn, if_pos hd]
  | bnHdr k =>
    cases he
    obtain ⟨hh, hk⟩ := headerByte_isHeader k (by simpa [Instr.wf] using hw)
    simp only [Instr.holdsIn, Bool.and_eq_true, beq_iff_eq, bne_iff_ne] at hc
    obtain ⟨⟨hs, hn⟩, hd⟩ := hc
    rw [decodeWire_expectBlockNum _ hs, if_neg hn, if_neg hd, if_pos hh, hk]
  | bnOther a =>
    cases he
    have hh : isHeader b = false := (isHeader_eq_false_iff b).mpr (by simpa [Instr.wf] using hw)
    simp only [Instr.holdsIn, Bool.and_eq_true, beq_iff_eq, bne_iff_ne] at hc
    obtain ⟨⟨hs, hn⟩, hd⟩ := hc
    rw [decodeWire_expectBlockNum _ hs, if_neg hn, if_neg hd, if_neg (by simp [hh])]
  | bcMatch =>
    cases he
    simp only [Instr.holdsIn, Bool.and_eq_true, beq_iff_eq] at hc
    rw [decodeWire_expectBlockNumComplement _ hc.1, if_pos hc.2]
  | bcHdr k =>
    cases he
    obtain ⟨hh, hk⟩ := headerByte_isHeader k (by simpa [Instr.wf] using hw)
    simp only [Instr.holdsIn, Bool.and_eq_true, beq_iff_eq, bne_iff_ne] at hc
    rw [decodeWire_expectBlockNumComplement _ hc.1, if_neg hc.2, if_pos hh, hk]
  | bcOther a =>
    cases he
    have hh : isHeader b = false := (isHeader_eq_false_iff b).mpr (by simpa [Instr.wf] using hw)
    simp only [Instr.holdsIn, Bool.and_eq_true, beq_iff_eq, bne_iff_ne] at hc
    rw [decodeWire_expectBlockNumComplement _ hc.1, if_neg hc.2, if_neg (by simp [hh])]
  | rdData => cases he; exact decodeWire_receivingData _ (by simpa [Instr.holdsIn] using hc)
  | chCrchi => cases he; exact decodeWire_expectCrcHigh _ (by simpa [Instr.holdsIn] using hc)
  | clCrcloBad =>
    cases he
    simp only [Instr.holdsIn, Bool.and_eq_true, beq_iff_eq, Bool.not_eq_true'] at hc
    rw [decodeWire_expectCrcLow _ hc.1, if_neg (by simp [hc.2])]
  | clCrcloOk =>
    cases he
    simp only [Instr.holdsIn, Bool.and_eq_true, beq_iff_eq] at hc
    rw [decodeWire_expectCrcLow _ hc.1, if_pos hc.2]
  | prIgnored => cases he; exact decodeWire_packetReady _ (by simpa [Instr.holdsIn] using hc)
  | termIgnored => cases he; exact decodeWire_terminal _ (by simpa [Instr.holdsIn] using hc)

/-- The decoder's row applies: its word is the byte, and the tests that chose it are its conditions. -/
theorem decodeWire_appliesTo (c : RowCtx) (b : Byte) : (decodeWire c b).AppliesTo c b := by
  cases hs : c.fsm with
  | awaitHandshakeOrHeader =>
    rw [decodeWire_awaitHandshakeOrHeader b hs]
    split_ifs with hstd hext heot
    · exact ⟨rfl, by simp [Instr.holdsIn, hs], by rw [hstd]; rfl⟩
    · exact ⟨rfl, by simp [Instr.holdsIn, hs], by rw [hext]; rfl⟩
    · exact ⟨rfl, by simp [Instr.holdsIn, hs], by rw [heot]; rfl⟩
    · have hw : (Instr.awNoise b).wf = true := by
        simp only [Instr.wf, Bool.and_eq_true, bne_iff_ne]
        exact ⟨⟨hstd, hext⟩, heot⟩
      exact ⟨hw, by simp [Instr.holdsIn, hs], rfl⟩
  | expectBlockNum =>
    rw [decodeWire_expectBlockNum b hs]
    split_ifs with hn hd hh
    · exact ⟨rfl, by simp [Instr.holdsIn, hs, hn], rfl⟩
    · exact ⟨rfl, by simp [Instr.holdsIn, hs, ← hd, hn], rfl⟩
    · obtain ⟨hb, hk⟩ := isHeader_headerByte_setWidth b hh
      exact ⟨by simpa [Instr.wf] using hk, by simp [Instr.holdsIn, hs, hb, hn, hd], by simp [encode, hb]⟩
    · exact ⟨by simpa [Instr.wf] using (isHeader_eq_false_iff b).mp (by simpa using hh),
        by simp [Instr.holdsIn, hs, hn, hd], rfl⟩
  | expectBlockNumComplement =>
    rw [decodeWire_expectBlockNumComplement b hs]
    split_ifs with hm hh
    · exact ⟨rfl, by simp [Instr.holdsIn, hs, hm], rfl⟩
    · obtain ⟨hb, hk⟩ := isHeader_headerByte_setWidth b hh
      exact ⟨by simpa [Instr.wf] using hk, by simp [Instr.holdsIn, hs, hb, hm], by simp [encode, hb]⟩
    · exact ⟨by simpa [Instr.wf] using (isHeader_eq_false_iff b).mp (by simpa using hh),
        by simp [Instr.holdsIn, hs, hm], rfl⟩
  | receivingData => rw [decodeWire_receivingData b hs]; exact ⟨rfl, by simp [Instr.holdsIn, hs], rfl⟩
  | expectCrcHigh => rw [decodeWire_expectCrcHigh b hs]; exact ⟨rfl, by simp [Instr.holdsIn, hs], rfl⟩
  | expectCrcLow =>
    rw [decodeWire_expectCrcLow b hs]
    split_ifs with hm
    · exact ⟨rfl, by simp [Instr.holdsIn, hs, hm], rfl⟩
    · exact ⟨rfl, by simp [Instr.holdsIn, hs, hm], rfl⟩
  | packetReady => rw [decodeWire_packetReady b hs]; exact ⟨rfl, by simp [Instr.holdsIn, hs], rfl⟩
  | success => rw [decodeWire_terminal b (.inl hs)]; exact ⟨rfl, by simp [Instr.holdsIn, hs], rfl⟩
  | failure => rw [decodeWire_terminal b (.inr hs)]; exact ⟨rfl, by simp [Instr.holdsIn, hs], rfl⟩

/-! ### Command words -/

/-- The eight operation codes select the eight rows of the command port, and only FEED and TICK read the operand
(30_encoding.md R82, R84). -/
theorem decodeCommand_commandWord (arg : BitVec 32) :
    decodeCommand (commandWord 0#3 arg) = .feed (arg.setWidth 8) ∧
    decodeCommand (commandWord 1#3 arg) = .tick arg ∧
    decodeCommand (commandWord 2#3 arg) = .extract ∧
    decodeCommand (commandWord 3#3 arg) = .qstate ∧
    decodeCommand (commandWord 4#3 arg) = .qfin ∧
    decodeCommand (commandWord 5#3 arg) = .reserved5 ∧
    decodeCommand (commandWord 6#3 arg) = .reserved6 ∧
    decodeCommand (commandWord 7#3 arg) = .reserved7 := by
  simp [decodeCommand]

/-- A command word is its operation code above its operand. -/
theorem commandWord_opField_argField (w : CmdWord) : commandWord (opField w) (argField w) = w := by
  rw [commandWord, opField, argField, BitVec.extractLsb'_append_extractLsb'_eq_extractLsb' (by rfl)]
  exact BitVec.extractLsb'_eq_self

end Sys2Proof

namespace Sys2Proof.Proofs

open Sys2Proof

/-- Settles O7: the decoder's row applies, and a row that applies is the decoder's. -/
theorem everyByteHasExactlyOneClass : Obligations.EveryByteHasExactlyOneClass :=
  fun c b _ => ⟨fun h => (Instr.AppliesTo.decodeWire_eq h).symm, fun h => h ▸ decodeWire_appliesTo c b⟩

/-- Settles O6, by the format of the row's word: a row of the input classes applies to its byte, so it is the decoder's;
the other words decode without the Session. -/
theorem decodeEncodeRoundTrip : Obligations.DecodeEncodeRoundTrip := by
  intro i c hw hc hnack
  cases i with
  | feed | tick | extract | qstate | qfin | reserved5 | reserved6 | reserved7 =>
    simp [decode, encode, decodeCommand_commandWord]
  | ack | handshake => rfl
  | nackByte =>
    obtain ⟨hack, hhandshake⟩ := hnack rfl
    simp [decode, encode, decodeOutput, ackByte, handshakeByte, hack, hhandshake]
  | stateAwaitHandshakeOrHeader | stateExpectBlockNum | stateExpectBlockNumComplement | stateReceivingData
  | stateExpectCrcHigh | stateExpectCrcLow | statePacketReady | stateSuccess | stateFailure => rfl
  | awHdrStd | awHdrExt | awEot | awNoise | bnNext | bnDup | bnHdr | bnOther | bcMatch | bcHdr | bcOther | rdData
  | chCrchi | clCrcloBad | clCrcloOk | prIgnored | termIgnored =>
    exact congrArg Except.ok (Instr.AppliesTo.decodeWire_eq ⟨hw, hc, rfl⟩)

/-- Settles O5: a word is its fields put together, and `decodeCommand_commandWord` reads them. -/
theorem commandWordsIgnoreTheirSpareBits : Obligations.CommandWordsIgnoreTheirSpareBits :=
  fun w => ⟨(commandWord_opField_argField w).symm, decodeCommand_commandWord⟩

/-- Settles O4: closed words, evaluated. -/
theorem wordsOfTheSpecDecode : Obligations.WordsOfTheSpecDecode := by
  unfold Obligations.WordsOfTheSpecDecode
  decide

end Sys2Proof.Proofs
end

section
/-! A row of the input classes is byte intake of its byte (30_encoding.md R77, 41_feed_byte.md R128; log entry 4). -/

namespace Sys2Proof.Machine

open Sys2Proof Sys2Proof.Safety

/-- The arm of a row of the input classes (the column "state" and rule of spec/opcode_table.json), on its byte; a row of
another format has none of its own and takes the dispatch's. -/
def wireArm (i : Instr) (b : Byte) (s : State) : Result :=
  match i with
  | .awHdrStd | .awHdrExt => .next (s.feedAwHeader b)
  | .awEot => .next s.feedAwEot
  | .awNoise _ => .next s.feedAwNoise
  | .bnNext _ => .next s.feedBnNext
  | .bnDup _ => .next s.feedBnDup
  | .bnHdr _ => .next (s.feedBnHeader b)
  | .bnOther _ => .next s.feedBnOther
  | .bcMatch _ => .next s.feedBcMatch
  | .bcHdr _ => .next (s.feedBcHeader b)
  | .bcOther _ => .next s.feedBcOther
  | .rdData _ => s.feedData b
  | .chCrchi _ => .next (s.feedCrcHigh b)
  | .clCrcloBad _ =>
    match s.payload with
    | .error f => .fault f
    | .ok payload => .next (s.crcLatched b payload).crcMismatch
  | .clCrcloOk _ =>
    match s.payload with
    | .error f => .fault f
    | .ok payload => .next (s.crcLatched b payload).crcMatch
  | .prIgnored _ | .termIgnored _ => .next s
  | _ => s.feedArms b

/-- Every row whose word is a byte of the wire runs its arm under the one rule `asRow`. -/
theorem exec_wireRow {i : Instr} {nack b : Byte} (h : encode nack i = .wireIn8 b) (s : State) :
    exec i s = s.asRow i b (wireArm i b) := by
  cases i with
  | feed | tick | extract | qstate | qfin | reserved5 | reserved6 | reserved7 | ack | nackByte | handshake
  | stateAwaitHandshakeOrHeader | stateExpectBlockNum | stateExpectBlockNumComplement | stateReceivingData
  | stateExpectCrcHigh | stateExpectCrcLow | statePacketReady | stateSuccess | stateFailure => cases h
  | awHdrStd | awHdrExt | awEot | awNoise | bnNext | bnDup | bnHdr | bnOther | bcMatch | bcHdr | bcOther | rdData
  | chCrchi | clCrcloBad | clCrcloOk | prIgnored | termIgnored =>
    cases h
    rfl

/-- The row that the decoder gives for a byte has the arm that the dispatch of R110 takes. -/
theorem wireArm_decodeWire (s : State) (b : Byte) : wireArm (decodeWire s.rowCtx b) b s = s.feedArms b := by
  cases hs : s.state with
  | awaitHandshakeOrHeader =>
    rw [decodeWire_awaitHandshakeOrHeader b hs]
    split_ifs with hstd hext heot
    · exact (FeedArm.awHeader hs ((isHeader_iff b).mpr (.inl hstd))).feedArms_eq.symm
    · exact (FeedArm.awHeader hs ((isHeader_iff b).mpr (.inr hext))).feedArms_eq.symm
    · exact (FeedArm.awEot hs heot).feedArms_eq.symm
    · exact (FeedArm.awNoise hs ((isHeader_eq_false_iff b).mpr ⟨hstd, hext⟩) heot).feedArms_eq.symm
  | expectBlockNum =>
    rw [decodeWire_expectBlockNum b hs]
    split_ifs with hn hd hh
    · exact (FeedArm.bnNext hs hn).feedArms_eq.symm
    · exact (FeedArm.bnDup hs hn hd).feedArms_eq.symm
    · exact (FeedArm.bnHeader hs hn hd hh).feedArms_eq.symm
    · exact (FeedArm.bnOther hs hn hd (by simpa using hh)).feedArms_eq.symm
  | expectBlockNumComplement =>
    rw [decodeWire_expectBlockNumComplement b hs]
    split_ifs with hm hh
    · exact (FeedArm.bcMatch hs hm).feedArms_eq.symm
    · exact (FeedArm.bcHeader hs hm hh).feedArms_eq.symm
    · exact (FeedArm.bcOther hs hm (by simpa using hh)).feedArms_eq.symm
  | receivingData =>
    rw [decodeWire_receivingData b hs]
    simp only [wireArm, State.feedArms, hs]
  | expectCrcHigh =>
    rw [decodeWire_expectCrcHigh b hs]
    exact (FeedArm.crcHigh hs).feedArms_eq.symm
  | expectCrcLow =>
    rw [decodeWire_expectCrcLow b hs]
    cases hp : s.payload with
    | error f =>
      have hm : s.rowCtx.crcMatches b = false := by simp [RowCtx.crcMatches, State.rowCtx, State.payloadCrc, hp]
      simp only [hm, wireArm, hp, State.feedArms, hs, State.feedCrcLow_of_error hp, Bool.false_eq_true, if_false]
    | ok p =>
      have hm : s.rowCtx.crcMatches b = true ↔ s.receivedCrc ||| b.setWidth 16 = crc16 p := by
        rw [RowCtx.crcMatches, State.rowCtx, State.payloadCrc_of_ok hp, beq_iff_eq, Option.some_inj, eq_comm]
      split_ifs with hc
      · rw [(FeedArm.crcOk p hs hp (hm.mp hc)).feedArms_eq]
        simp only [wireArm, hp]
      · rw [(FeedArm.crcBad p hs hp (mt hm.mpr hc)).feedArms_eq]
        simp only [wireArm, hp]
  | packetReady =>
    rw [decodeWire_packetReady b hs]
    exact (FeedArm.ignored (.inl hs)).feedArms_eq.symm
  | success =>
    rw [decodeWire_terminal b (.inl hs)]
    exact (FeedArm.ignored (.inr (.inl hs))).feedArms_eq.symm
  | failure =>
    rw [decodeWire_terminal b (.inr hs)]
    exact (FeedArm.ignored (.inr (.inr hs))).feedArms_eq.symm

/-- A row that applies is the decoder's, and one that does not hands its byte to byte intake. -/
theorem exec_eq_feedByte_of_encode {i : Instr} {s : State} {b : Byte} (h : encode s.cfg.nackByte i = .wireIn8 b) :
    exec i s = s.feedByte b := by
  rw [exec_wireRow h, State.asRow]
  split
  · next hc =>
    rw [Bool.and_eq_true] at hc
    have hrow : decodeWire s.clearPorts.rowCtx b = i := Instr.AppliesTo.decodeWire_eq ⟨hc.1, hc.2, h⟩
    rw [State.feedByte, ← wireArm_decodeWire, hrow]
  · rfl

/-- FEED of a byte is byte intake. -/
theorem exec_feed (b : Byte) (s : State) : exec (.feed b) s = s.feedByte b := rfl

/-- The decoder's row for a byte is byte intake of that byte. -/
theorem exec_decodeWire (s : State) (b : Byte) : exec (decodeWire s.rowCtx b) s = s.feedByte b :=
  let ⟨_, _, hword⟩ := decodeWire_appliesTo s.rowCtx b
  exec_eq_feedByte_of_encode hword

end Sys2Proof.Machine

namespace Sys2Proof.Proofs

open Sys2Proof Sys2Proof.Machine Sys2Proof.Safety

/-- Settles O8: a row whose word is a byte is byte intake of it, and so is FEED. -/
theorem inputClassRowsActAsFeed : Obligations.InputClassRowsActAsFeed :=
  fun _ s b h => (exec_eq_feedByte_of_encode h).trans (exec_feed b s).symm

/-- Settles O9: the wire byte runs the decoder's row, the command word runs FEED, and both are byte intake. -/
theorem wireByteStepIsFeedStep : Obligations.WireByteStepIsFeedStep := by
  intro s b
  rw [step_present_wireByte, step_present_feedInput, exec_decodeWire, exec_feed]

end Sys2Proof.Proofs
end

section
/-! The invariant of the Session (10_state.md R37, R38, R41, R42; 20_memory.md R54): one rule for each operation on the
registers, then the arms of byte intake, TICK and EXTRACT, which are made of them. -/

namespace Sys2Proof.Safety

open Sys2Proof Sys2Proof.Machine

/-! ### The states that hold no payload -/

/-- The states in which no payload byte has arrived and none is waited for: neither RECEIVING_DATA nor a state with the
whole payload in the buffer. -/
def outsidePayload (f : FsmState) : Bool := f != .receivingData && !payloadComplete f

/-- Outside the payload the invariant is what it says of the buffer, the counters and the clock. -/
theorem Inv.of_outsidePayload {s : State} (hs : outsidePayload s.state = true)
    (hbuffer : s.packetBuffer.wf = true) (hsize : s.packetSize = 128#11 ∨ s.packetSize = 1024#11)
    (hfill : s.fillPosition.toNat ≤ s.packetSize.toNat)
    (hwritten : ∀ i, i < s.fillPosition.toNat → ∃ b, s.packetBuffer.read i = .ok b)
    (hunseen : s.blockSeen = false → s.expectedBlock = 0#8) (herrors : s.errorCount.toNat ≤ errorLimit s)
    (hclock : s.timeValid = false → s.currentTime = 0#32 ∧ s.lastActivityTime = 0#32) : Inv s where
  bufferCanonical := hbuffer
  sizeLegal := hsize
  fillBounded := hfill
  roomWhileReceiving h := by simp [outsidePayload, h] at hs
  fullWhenComplete h := by simp [outsidePayload, h] at hs
  filledIsWritten := hwritten
  lowHalfClear h := by simp [outsidePayload, payloadComplete, h] at hs
  readyMatched h := by simp [outsidePayload, payloadComplete, h] at hs
  readySeen h := by simp [outsidePayload, payloadComplete, h] at hs
  unseenUndelivered := hunseen
  errorsBounded := herrors
  clockUnset := hclock

/-! ### The bound on the errors -/

/-- Only in FAILURE may the count pass `MAX_ERRORS + 1` (10_state.md R41). -/
theorem errorLimit_le_succ {s : State} (h : s.state ≠ .failure) : errorLimit s ≤ s.cfg.maxErrors.val + 1 := by
  cases hs : s.state with
  | failure => exact absurd hs h
  | receivingData => simp only [errorLimit, hs]; split <;> omega
  | awaitHandshakeOrHeader | expectBlockNum | expectBlockNumComplement | expectCrcHigh | expectCrcLow | packetReady
  | success => simp [errorLimit, hs]

theorem maxErrors_le_errorLimit (s : State) : s.cfg.maxErrors.val ≤ errorLimit s := by
  cases hs : s.state with
  | receivingData => simp only [errorLimit, hs]; split <;> omega
  | awaitHandshakeOrHeader | expectBlockNum | expectBlockNumComplement | expectCrcHigh | expectCrcLow | packetReady
  | success | failure => simp [errorLimit, hs]

/-- With the whole payload in the buffer the bound is `MAX_ERRORS`. -/
theorem errorLimit_of_payloadComplete {s : State} (h : payloadComplete s.state = true) :
    errorLimit s = s.cfg.maxErrors.val := by
  cases hs : s.state with
  | expectCrcHigh | expectCrcLow | packetReady => simp only [errorLimit, hs]
  | awaitHandshakeOrHeader | expectBlockNum | expectBlockNumComplement | receivingData | success | failure =>
    rw [hs] at h; cases h

/-- A header marker does not lower the bound: the fill it leaves is 0. -/
theorem errorLimit_le_acceptHeader (s : State) (b : Byte) : errorLimit s ≤ errorLimit (s.acceptHeader b) := by
  cases hs : s.state with
  | receivingData => simp only [errorLimit, hs, State.acceptHeader_state]; split <;> simp
  | awaitHandshakeOrHeader | expectBlockNum | expectBlockNumComplement | expectCrcHigh | expectCrcLow | packetReady
  | success | failure => simp [errorLimit, hs]

theorem Inv.errors_le_succ {s : State} (h : Inv s) (hs : s.state ≠ .failure) :
    s.errorCount.toNat ≤ s.cfg.maxErrors.val + 1 :=
  h.errorsBounded.trans (errorLimit_le_succ hs)

theorem Inv.errors_le {s : State} (h : Inv s) (hs : payloadComplete s.state = true) :
    s.errorCount.toNat ≤ s.cfg.maxErrors.val :=
  h.errorsBounded.trans_eq (errorLimit_of_payloadComplete hs)

theorem toNat_add_one_le (e : BitVec 8) : (e + 1#8).toNat ≤ e.toNat + 1 := by
  rw [BitVec.toNat_add]
  exact Nat.mod_le _ _

/-! ### One rule for each operation on the registers -/

theorem Inv.clearPorts {s : State} (h : Inv s) : Inv s.clearPorts := h.ports [] none []

theorem Inv.emit {s : State} (h : Inv s) (b : Byte) : Inv (s.emit b) := h.ports (s.tx ++ [b]) s.response s.events

theorem Inv.answer {s : State} (h : Inv s) (r : Response) : Inv (s.answer r) := h.ports s.tx (some r) s.events

theorem Inv.noteEvent {s : State} (h : Inv s) (e : Event) : Inv (s.noteEvent e) :=
  h.ports s.tx s.response (s.events ++ [e])

theorem Inv.duplicate {s : State} (h : Inv s) (d : Bool) : Inv { s with isDuplicateBlock := d } := { h with }

/-- The activity stamp copies a time that is 0 before the first TICK. -/
theorem Inv.stamp {s : State} (h : Inv s) : Inv s.stamp :=
  { h with clockUnset := fun hv => ⟨(h.clockUnset hv).1, (h.clockUnset hv).1⟩ }

/-- Once a TICK was taken the times are free. -/
theorem Inv.times {s : State} (h : Inv s) {valid : Bool} (hv : valid = true) (now last : Time) :
    Inv { s with timeValid := valid, currentTime := now, lastActivityTime := last } :=
  { h with clockUnset := fun hf => absurd (hv.symm.trans hf) (by decide) }

theorem Inv.latchTime {s : State} (h : Inv s) (hv : s.timeValid = true) (now : Time) : Inv (s.latchTime now) :=
  h.times hv now s.lastActivityTime

theorem Inv.countError {s : State} (h : Inv s) (he : s.errorCount.toNat + 1 ≤ errorLimit s) : Inv s.countError :=
  { h with errorsBounded := (toNat_add_one_le _).trans he }

/-- A header marker is accepted outside the payload, and empties the buffer's fill. -/
theorem Inv.acceptHeader {s : State} (h : Inv s) (hs : outsidePayload s.state = true) (b : Byte) :
    Inv (s.acceptHeader b) :=
  .of_outsidePayload hs h.bufferCanonical (sizeOfHeader_legal b) (Nat.zero_le _) nofun h.unseenUndelivered
    (h.errorsBounded.trans (errorLimit_le_acceptHeader s b)) h.clockUnset

/-- A state outside the payload is entered with a count that its bound allows. -/
theorem Inv.goto {s : State} (h : Inv s) {n : FsmState} (hn : outsidePayload n = true)
    (he : s.errorCount.toNat ≤ errorLimit (s.goto n)) : Inv (s.goto n) :=
  .of_outsidePayload hn h.bufferCanonical h.sizeLegal h.fillBounded h.filledIsWritten h.unseenUndelivered he h.clockUnset

/-! ### Byte intake -/

/-- Storing a payload byte at `fill_position` writes the one index that was missing (41_feed_byte.md R121). -/
theorem Inv.dataStored {s : State} (h : Inv s) (hs : s.state = .receivingData) (b : Byte) :
    Inv (s.dataStored (s.packetBuffer.put s.fillPosition.toNat b)) := by
  have hroom := h.roomWhileReceiving hs
  have hsize : s.packetSize.toNat ≤ 1024 := by rcases h.sizeLegal with hz | hz <;> simp [hz]
  have hcap : s.fillPosition.toNat < bufCap := hroom.trans_le hsize
  have hnext : (s.fillPosition + 1#11).toNat = s.fillPosition.toNat + 1 := by bv_omega
  rw [State.dataStored_eq]
  exact
    { bufferCanonical := Memory.wf_put _ b h.bufferCanonical hcap
      sizeLegal := h.sizeLegal
      fillBounded := hnext.trans_le hroom
      roomWhileReceiving := by
        intro hstay
        have hl : s.fillPosition + 1#11 ≠ s.packetSize := fun hl => by simp [hl] at hstay
        show (s.fillPosition + 1#11).toNat < s.packetSize.toNat
        bv_omega
      fullWhenComplete := by
        intro hfull
        by_contra hl
        simp [show ¬ s.fillPosition + 1#11 = s.packetSize from hl, hs, payloadComplete] at hfull
      filledIsWritten := by
        intro i hi
        by_cases hlast : i = s.fillPosition.toNat
        · exact ⟨b, by rw [hlast]; exact Memory.read_put_same _ b hcap⟩
        · obtain ⟨c, hc⟩ := h.filledIsWritten i (by simp only [hnext] at hi; omega)
          exact ⟨c, (Memory.read_put_other _ b hlast).trans hc⟩
      lowHalfClear := by intro hf; simp only [hs] at hf; split at hf <;> cases hf
      readyMatched := by intro hf; simp only [hs] at hf; split at hf <;> cases hf
      readySeen := by intro hf; simp only [hs] at hf; split at hf <;> cases hf
      unseenUndelivered := h.unseenUndelivered
      errorsBounded := Nat.zero_le _
      clockUnset := fun hv => ⟨(h.clockUnset hv).1, (h.clockUnset hv).1⟩ }

/-- The payload opens empty (41_feed_byte.md R118). -/
theorem Inv.feedBcMatch {s : State} (h : Inv s) (hs : s.state ≠ .failure) : Inv s.feedBcMatch where
  bufferCanonical := h.bufferCanonical
  sizeLegal := h.sizeLegal
  fillBounded := Nat.zero_le _
  roomWhileReceiving _ := by
    show 0 < s.packetSize.toNat
    rcases h.sizeLegal with hz | hz <;> simp [hz]
  fullWhenComplete := nofun
  filledIsWritten := nofun
  lowHalfClear := nofun
  readyMatched := nofun
  readySeen := nofun
  unseenUndelivered := h.unseenUndelivered
  errorsBounded := h.errors_le_succ hs
  clockUnset := h.stamp.clockUnset

/-- The high CRC byte leaves the low half of `received_crc` zero (41_feed_byte.md R122). -/
theorem Inv.feedCrcHigh {s : State} (h : Inv s) (hs : s.state = .expectCrcHigh) (b : Byte) :
    Inv (s.feedCrcHigh b) where
  bufferCanonical := h.bufferCanonical
  sizeLegal := h.sizeLegal
  fillBounded := h.fillBounded
  roomWhileReceiving := nofun
  fullWhenComplete _ := h.fullWhenComplete (by rw [hs]; rfl)
  filledIsWritten := h.filledIsWritten
  lowHalfClear _ := by
    have hlow : ∀ b : Byte, (b.setWidth 16 <<< 8) &&& 0x00FF#16 = 0#16 := by decide
    exact hlow b
  readyMatched := nofun
  readySeen := nofun
  unseenUndelivered := h.unseenUndelivered
  errorsBounded := h.errors_le (by rw [hs]; rfl)
  clockUnset := h.stamp.clockUnset

/-- A matching CRC makes the packet wait with both CRC values equal to the payload's (41_feed_byte.md R124). -/
theorem Inv.crcMatch {s : State} (h : Inv s) (hs : s.state = .expectCrcLow) {b : Byte} {p : List Byte}
    (hp : s.payload = .ok p) (hc : s.receivedCrc ||| b.setWidth 16 = crc16 p) :
    Inv (s.crcLatched b p).crcMatch where
  bufferCanonical := h.bufferCanonical
  sizeLegal := h.sizeLegal
  fillBounded := h.fillBounded
  roomWhileReceiving := nofun
  fullWhenComplete _ := h.fullWhenComplete (by rw [hs]; rfl)
  filledIsWritten := h.filledIsWritten
  lowHalfClear := nofun
  readyMatched _ := ⟨hc, State.payloadCrc_of_ok hp⟩
  readySeen _ := rfl
  unseenUndelivered := nofun
  errorsBounded := h.errors_le (by rw [hs]; rfl)
  clockUnset := h.stamp.clockUnset

/-- A mismatch is counted on the way back to the header wait, whose bound has room for it (41_feed_byte.md R123). -/
theorem Inv.crcMismatch {s : State} (h : Inv s) (hs : s.state = .expectCrcLow) (b : Byte) (p : List Byte) :
    Inv (s.crcLatched b p).crcMismatch := by
  have herr : s.errorCount.toNat ≤ s.cfg.maxErrors.val := h.errors_le (by rw [hs]; rfl)
  exact .of_outsidePayload rfl h.bufferCanonical h.sizeLegal h.fillBounded h.filledIsWritten h.unseenUndelivered
    ((toNat_add_one_le _).trans (Nat.succ_le_succ herr)) h.stamp.clockUnset

/-- Every arm of byte intake keeps the invariant. -/
theorem Inv.feedArm {s u : State} {b : Byte} (h : Inv s) (hu : FeedArm s b u) : Inv u := by
  cases hu with
  | awHeader hs =>
    exact (h.acceptHeader (by rw [hs]; rfl) b).stamp.goto rfl (h.errors_le_succ (by simp [hs]))
  | awEot hs => exact ((h.noteEvent _).emit _).goto rfl (h.errors_le_succ (by simp [hs]))
  | awNoise hs => exact (h.noteEvent _).goto rfl (h.errors_le_succ (by simp [hs]))
  | bnNext hs => exact (h.duplicate false).stamp.goto rfl (h.errors_le_succ (by simp [hs]))
  | bnDup hs => exact ((h.duplicate true).stamp.noteEvent _).goto rfl (h.errors_le_succ (by simp [hs]))
  | bnHeader hs | bcHeader hs =>
    exact ((h.acceptHeader (by rw [hs]; rfl) b).stamp.noteEvent _).goto rfl (h.errors_le_succ (by simp [hs]))
  | bnOther hs | bcOther hs => exact (h.stamp.noteEvent _).goto rfl (h.errors_le_succ (by simp [hs]))
  | bcMatch hs => exact h.feedBcMatch (by simp [hs])
  | data hs => exact h.dataStored hs b
  | crcHigh hs => exact h.feedCrcHigh hs b
  | crcBad p hs => exact h.crcMismatch hs b p
  | crcOk p hs hp hc => exact h.crcMatch hs hp hc
  | ignored => exact h

/-! ### TICK and EXTRACT -/

/-- Every arm of a TICK keeps the invariant: FAILURE alone has room for a count above `MAX_ERRORS + 1`. -/
theorem Inv.tickArm {s t : State} {now : Time} (h : Inv s) (ht : TickArm s now t) : Inv t := by
  cases ht with
  | terminal => exact h
  | first =>
    rw [State.tickFirst_eq]
    exact (h.times rfl now now).ports _ _ _
  | holding hv | quiet _ hv => exact h.latchTime hv now
  | quietFails ha hv =>
    have hs := ((State.active_iff s).mp ha).2.1
    exact ((h.latchTime hv now).noteEvent _).goto rfl ((h.errors_le_succ hs).trans (Nat.le_succ _))
  | resends ha hv hq he =>
    have hle : (s.errorCount + 1#8).toNat ≤ s.cfg.maxErrors.val := by
      rw [← not_lt, ← State.countError_errorsExceeded_iff, he]
      decide
    have hcount : Inv s.countError := { h with errorsBounded := hle.trans (maxErrors_le_errorLimit s) }
    rw [State.tickResends_eq]
    exact (hcount.times hv now now).ports _ _ _
  | stallFails ha hv =>
    have hle := h.errors_le_succ ((State.active_iff s).mp ha).2.1
    have hfail : Inv (s.goto .failure) := h.goto rfl (hle.trans (Nat.le_succ _))
    have hcount : Inv (s.goto .failure).countError := hfail.countError (Nat.succ_le_succ hle)
    rw [State.tickStallFails_eq]
    exact (hcount.times hv now s.lastActivityTime).ports _ _ _

/-- Every arm of EXTRACT keeps the invariant: a delivered packet was seen, and forgives the count. -/
theorem Inv.extractArm {s t : State} (h : Inv s) (ht : ExtractArm s t) : Inv t := by
  cases ht with
  | nothing => exact h.answer _
  | deliver p hs =>
    have hseen : s.blockSeen ≠ false := by simp [h.readySeen hs]
    have hcount : Inv { s with expectedBlock := s.expectedBlock + 1#8, errorCount := 0#8 } :=
      { h with unseenUndelivered := fun hn => absurd hn hseen, errorsBounded := Nat.zero_le _ }
    exact ((hcount.stamp.emit ackByte).goto rfl (Nat.zero_le _)).answer _
  | discard hs =>
    have hwait : Inv ((s.stamp.noteEvent .duplicateBlock).goto .awaitHandshakeOrHeader) :=
      (h.stamp.noteEvent _).goto rfl (h.errors_le_succ (by simp [hs]))
    exact (hwait.emit ackByte).answer _

/-! ### Instructions, the outside and steps -/

/-- Every instruction keeps the invariant. -/
theorem Inv.exec_next {i : Instr} {s t : State} (h : Inv s) (ht : exec i s = .next t) : Inv t := by
  rcases Machine.exec_next ht with ⟨b, -, u, hu, rfl⟩ | ⟨now, -, htick⟩ | ⟨-, hx⟩ | ⟨-, -, b, -, rfl⟩ | ⟨-, -, r, -, rfl⟩
  · exact (h.clearPorts.feedArm hu).answer _
  · exact h.clearPorts.tickArm htick
  · exact h.clearPorts.extractArm hx
  · exact h.clearPorts.emit b
  · exact h.clearPorts.answer r

/-- The reset input gives the invariant to any state, whatever the configuration and the caller's side. -/
theorem inv_resetSession (s : State) : Inv s.resetSession :=
  .of_outsidePayload rfl rfl (.inl rfl) (Nat.zero_le _) nofun (fun _ => rfl) (Nat.zero_le _) fun _ => ⟨rfl, rfl⟩

/-- What the outside does keeps the invariant: the Session is reset, or not touched. -/
theorem Inv.fromOutside {s : State} (h : Inv s) (i : Input) : Inv (s.fromOutside i) := by
  cases i with
  | command | wireByte => exact h
  | reset => exact inv_resetSession s
  | destination n => exact { h with }

end Sys2Proof.Safety

namespace Sys2Proof.Proofs

open Sys2Proof Sys2Proof.Machine Sys2Proof.Safety

/-- Settles O50, by the cases of a step: no input, an instruction, or what the outside does. -/
theorem everyStepKeepsTheInvariant : Obligations.EveryStepKeepsTheInvariant := by
  intro s t h ht
  rcases step_cases s with ⟨-, hs⟩ | ⟨i, rest, instr, -, -, hs⟩ | ⟨i, rest, -, -, hs⟩
  · cases hs.symm.trans ht; exact h
  · exact (h.consumed rest).exec_next (hs.symm.trans ht)
  · cases hs.symm.trans ht; exact (h.consumed rest).fromOutside i

/-- Settles O51: the reset state is what the reset input leaves of it. -/
theorem resetHasTheInvariant : Obligations.ResetHasTheInvariant := inv_resetSession State.reset

end Sys2Proof.Proofs
end

section
/-! Where the machine stops (20_memory.md R50; 93_implementation_defined.md U8), and that no state with the invariant
stops there (60_exceptions.md R180, 41_feed_byte.md R128). -/

namespace Sys2Proof.Machine

open Sys2Proof Sys2Proof.Safety

/-- A range is read in ascending order, so it stops at its first unreadable byte. -/
theorem Memory.readRange_of_first_error (m : Memory) {k count : Nat} {f : Fault} (start : Nat) (hk : k < count)
    (hbelow : ∀ j, j < k → ∃ b, m.read (start + j) = .ok b) (herror : m.read (start + k) = .error f) :
    m.readRange start count = .error f := by
  induction k generalizing start count with
  | zero =>
    obtain ⟨n, rfl⟩ := Nat.exists_eq_add_of_lt hk
    have h0 : m.read start = .error f := herror
    simp [Memory.readRange, h0]
  | succ k ih =>
    obtain ⟨n, rfl⟩ : ∃ n, count = n + 1 := Nat.exists_eq_succ_of_ne_zero (by omega)
    obtain ⟨b, hb⟩ := hbelow 0 (Nat.succ_pos k)
    have hrest : m.readRange (start + 1) n = .error f := by
      refine ih (start + 1) (by omega) (fun j hj => ?_) ?_
      · obtain ⟨c, hc⟩ := hbelow (j + 1) (by omega)
        exact ⟨c, by rwa [Nat.add_assoc, Nat.add_comm 1 j]⟩
      · rwa [Nat.add_assoc, Nat.add_comm 1 k]
    have h0 : m.read start = .ok b := hb
    simp [Memory.readRange, h0, hrest]

/-- A payload byte beyond the buffer stops byte intake. -/
theorem State.feedByte_of_full {s : State} (hs : s.state = .receivingData) (hi : bufCap ≤ s.fillPosition.toNat)
    (b : Byte) : s.feedByte b = .fault (.bufferIndexOutOfRange s.fillPosition.toNat) := by
  have hw : s.packetBuffer.write s.fillPosition.toNat b = .error (.bufferIndexOutOfRange s.fillPosition.toNat) :=
    if_neg (Nat.not_lt.mpr hi)
  simp [State.feedByte, State.feedArms, State.feedData, hs, hw, answerFeed]

/-- A payload that cannot be read stops the CRC test. -/
theorem State.feedByte_of_payload_error {s : State} {f : Fault} (hs : s.state = .expectCrcLow)
    (hp : s.payload = .error f) (b : Byte) : s.feedByte b = .fault f := by
  have hlow : s.clearPorts.feedCrcLow b = .fault f := State.feedCrcLow_of_error (s := s.clearPorts) hp b
  simp [State.feedByte, State.feedArms, hs, hlow, answerFeed]

/-- A payload that cannot be read stops a delivery. -/
theorem execExtract_of_payload_error {s : State} {f : Fault} (hs : s.state = .packetReady)
    (hd : s.isDuplicateBlock = false) (hc : s.packetSize.toNat ≤ s.destCapacity) (hp : s.payload = .error f) :
    execExtract s = .fault f := by
  simp [execExtract, State.extractArms, State.packetReady, State.deliver, hs, hd, Nat.not_lt.mpr hc, hp]

/-- A row of a state answers as QSTATE does: in its own state its code is the state's. -/
theorem State.asCode_code (s : State) (row : FsmState) : s.asCode row row.code = execQstate s := by
  unfold State.asCode
  split
  · next hs => rw [← hs]; rfl
  · rfl

/-- Every row whose word is a state code is QSTATE (30_encoding.md R81; log entry 7). -/
theorem exec_eq_qstate_of_encode {i : Instr} {nack : Byte} {k : StateCode} (h : encode nack i = .state4 k) (s : State) :
    exec i s = exec .qstate s := by
  cases i with
  | stateAwaitHandshakeOrHeader | stateExpectBlockNum | stateExpectBlockNumComplement | stateReceivingData
  | stateExpectCrcHigh | stateExpectCrcLow | statePacketReady | stateSuccess | stateFailure =>
    exact s.asCode_code _
  | feed | tick | extract | qstate | qfin | reserved5 | reserved6 | reserved7 | ack | nackByte | handshake | awHdrStd
  | awHdrExt | awEot | awNoise | bnNext | bnDup | bnHdr | bnOther | bcMatch | bcHdr | bcOther | rdData | chCrchi
  | clCrcloBad | clCrcloOk | prIgnored | termIgnored => cases h

/-- Only byte intake and EXTRACT can fault: nothing else reads or writes the buffer. -/
theorem exec_fault {i : Instr} {s : State} {f : Fault} (h : exec i s = .fault f) :
    (∃ b, s.feedByte b = .fault f) ∨ execExtract s = .fault f := by
  cases i with
  | feed b => exact .inl ⟨b, h⟩
  | extract => exact .inr h
  | tick | qstate | qfin | reserved5 | reserved6 | reserved7 | ack | nackByte | handshake => cases h
  | stateAwaitHandshakeOrHeader | stateExpectBlockNum | stateExpectBlockNumComplement | stateReceivingData
  | stateExpectCrcHigh | stateExpectCrcLow | statePacketReady | stateSuccess | stateFailure =>
    cases (exec_eq_qstate_of_encode (nack := 0#8) rfl s).symm.trans h
  | awHdrStd | awHdrExt | awEot | awNoise | bnNext | bnDup | bnHdr | bnOther | bcMatch | bcHdr | bcOther | rdData
  | chCrchi | clCrcloBad | clCrcloOk | prIgnored | termIgnored =>
    exact .inl ⟨_, (exec_eq_feedByte_of_encode rfl).symm.trans h⟩

end Sys2Proof.Machine

namespace Sys2Proof.Safety

open Sys2Proof Sys2Proof.Machine

/-- From the last payload byte on, the whole payload can be read (10_state.md R38, 20_memory.md R54). -/
theorem Inv.payload_readable {s : State} (h : Inv s) (hs : payloadComplete s.state = true) : ∃ p, s.payload = .ok p := by
  refine Memory.readRange_of_readable _ 0 _ fun k hk => ?_
  rw [← h.fullWhenComplete hs] at hk
  rw [Nat.zero_add]
  exact h.filledIsWritten k hk

/-- Byte intake completes for every byte (41_feed_byte.md R128). -/
theorem Inv.feedByte_completes {s : State} (h : Inv s) (b : Byte) : ∃ t, s.feedByte b = .next t := by
  unfold State.feedByte
  cases hr : s.clearPorts.feedArms b with
  | next u => exact ⟨_, rfl⟩
  | refused r => exact absurd hr (State.feedArms_ne_refused _ _ _)
  | fault f =>
    rcases State.feedArms_fault hr with ⟨hs, hfull⟩ | ⟨hs, hp⟩
    · have hroom := h.roomWhileReceiving hs
      have hfull : 1024 ≤ s.fillPosition.toNat := hfull
      rcases h.sizeLegal with hz | hz <;> rw [hz] at hroom <;> simp at hroom <;> omega
    · obtain ⟨p, hok⟩ := h.payload_readable (s := s) (by rw [show s.state = .expectCrcLow from hs]; rfl)
      cases hok.symm.trans hp

/-- EXTRACT does not fault: a waiting packet can be read. -/
theorem Inv.execExtract_ne_fault {s : State} (h : Inv s) (f : Fault) : execExtract s ≠ .fault f := by
  intro hx
  obtain ⟨hs, -, hp⟩ := State.extractArms_fault hx
  obtain ⟨p, hok⟩ := h.payload_readable (s := s) (by rw [show s.state = .packetReady from hs]; rfl)
  cases hok.symm.trans hp

/-- EXTRACT completes where the destination holds the packet. -/
theorem Inv.execExtract_completes {s : State} (h : Inv s) (hc : s.packetSize.toNat ≤ s.destCapacity) :
    ∃ t, execExtract s = .next t := by
  cases hr : execExtract s with
  | next t => exact ⟨t, rfl⟩
  | fault f => exact absurd hr (h.execExtract_ne_fault f)
  | refused r =>
    obtain ⟨-, -, hsmall, -⟩ := State.extractArms_refused hr
    exact absurd hc (Nat.not_le.mpr hsmall)

/-- No instruction faults. -/
theorem Inv.exec_ne_fault {s : State} (h : Inv s) (i : Instr) (f : Fault) : exec i s ≠ .fault f := by
  intro hf
  rcases exec_fault hf with ⟨b, hb⟩ | hx
  · obtain ⟨t, ht⟩ := h.feedByte_completes b
    cases ht.symm.trans hb
  · exact h.execExtract_ne_fault f hx

/-- No step faults. -/
theorem Inv.safe {s : State} (h : Inv s) : Safe s := by
  intro f hf
  rcases step_cases s with ⟨-, hs⟩ | ⟨i, rest, instr, -, -, hs⟩ | ⟨i, rest, -, -, hs⟩
  · cases hs.symm.trans hf
  · exact (h.consumed rest).exec_ne_fault instr f (hs.symm.trans hf)
  · cases hs.symm.trans hf

end Sys2Proof.Safety

namespace Sys2Proof.Proofs

open Sys2Proof Sys2Proof.Machine Sys2Proof.Safety

/-- Settles O52, by `Inv.safe` and the completion of byte intake and EXTRACT; the other operations answer in every
state. -/
theorem everyOperationCompletes : Obligations.EveryOperationCompletes :=
  fun _ h => ⟨h.safe, h.feedByte_completes, fun _ => ⟨_, rfl⟩, h.execExtract_completes, ⟨_, rfl⟩, ⟨_, rfl⟩⟩

/-- Settles O19: the index beyond the buffer stops the write, the first unwritten byte stops the reading of the
payload. -/
theorem missingBufferBytesFault : Obligations.MissingBufferBytesFault := by
  refine fun s => ⟨fun b hs hi => ?_, fun k hk _ hbelow hmissing => ?_⟩
  · have hfault := State.feedByte_of_full hs hi b
    exact ⟨hfault, (exec_eq_feedByte_of_encode rfl).trans hfault⟩
  · have hp : s.payload = .error (.bufferByteUnwritten k) :=
      Memory.readRange_of_first_error _ 0 hk (by simpa using hbelow) (by simpa using hmissing)
    exact ⟨fun b hs => State.feedByte_of_payload_error hs hp b,
      fun hs hd hc => execExtract_of_payload_error hs hd hc hp⟩

end Sys2Proof.Proofs
end

section
/-! Byte intake, arm by arm (41_feed_byte.md R111 to R126): the arm that the state and the byte select, and what it
leaves, for FEED and for the row of the byte's class. -/

namespace Sys2Proof.Machine

open Sys2Proof Sys2Proof.Safety

/-- FEED of a byte whose arm is known, and a row of that byte, both leave the arm's state with the response of R127. -/
theorem exec_feed_and_row (s : State) {u t : State} {i : Instr} {b : Byte} (hu : FeedArm s.clearPorts b u)
    (hi : encode s.cfg.nackByte i = .wireIn8 b) (ht : u.answer (.feed u.packetReady) = t) :
    exec (.feed b) s = .next t ∧ exec i s = .next t := by
  have hb : s.feedByte b = .next t := hu.feedByte_eq.trans (congrArg _ ht)
  exact ⟨hb, (exec_eq_feedByte_of_encode hi).trans hb⟩

/-- Writing the state that is held changes nothing. -/
theorem State.with_state_eq {s : State} {n : FsmState} (h : s.state = n) : { s with state := n } = s := h ▸ rfl

/-- `packet_size` after the header marker of the two bits `hh`. -/
theorem sizeOfHeader_setWidth : ∀ h : BitVec 2, h = 1#2 ∨ h = 2#2 →
    sizeOfHeader (h.setWidth 8) = if h = 1#2 then 128#11 else 1024#11 := by decide

/-- An arm that enters SUCCESS is the end-of-transmission's (60_exceptions.md R186). -/
theorem FeedArm.enters_success {s u : State} {b : Byte} (h : FeedArm s b u) (hu : u.state = .success)
    (hs : s.state ≠ .success) : s.state = .awaitHandshakeOrHeader ∧ b = eotByte := by
  cases h with
  | awEot hs' hb => exact ⟨hs', hb⟩
  | ignored => exact absurd hu hs
  | data hs' => rw [State.dataStored_eq] at hu; simp only [hs'] at hu; split at hu <;> cases hu
  | awHeader | awNoise | bnNext | bnDup | bnHeader | bnOther | bcMatch | bcHeader | bcOther | crcHigh | crcBad | crcOk =>
    cases hu

/-- TICK leaves the state or enters FAILURE. -/
theorem TickArm.state_cases {s t : State} {now : Time} (h : TickArm s now t) :
    t.state = s.state ∨ t.state = .failure := by
  cases h with
  | first => rw [State.tickFirst_eq]; exact .inl rfl
  | terminal | holding | quiet | resends => exact .inl rfl
  | quietFails | stallFails => exact .inr rfl

/-- EXTRACT leaves the state or goes to the header wait. -/
theorem ExtractArm.state_cases {s t : State} (h : ExtractArm s t) :
    t.state = s.state ∨ t.state = .awaitHandshakeOrHeader := by
  cases h with
  | nothing => exact .inl rfl
  | deliver | discard => exact .inr rfl

end Sys2Proof.Machine

namespace Sys2Proof.Proofs

open Sys2Proof Sys2Proof.Machine Sys2Proof.Safety

/-- Settles O10, by R111 at the two header markers. -/
theorem feedHeaderMarkerStartsAPacket : Obligations.FeedHeaderMarkerStartsAPacket := by
  intro s hs
  exact and_assoc.mp ⟨exec_feed_and_row s (.awHeader hs (by decide)) rfl rfl,
    exec_feed_and_row s (.awHeader hs (by decide)) rfl rfl⟩

/-- Settles O11: R112 in the header wait; of all that an instruction can do, only that arm enters SUCCESS. -/
theorem feedEndOfTransmissionSucceeds : Obligations.FeedEndOfTransmissionSucceeds := by
  refine ⟨fun s hs => exec_feed_and_row s (.awEot hs rfl) rfl rfl, fun i s t h ht hs => ?_⟩
  rcases exec_next h with ⟨b, hi, u, hu, rfl⟩ | ⟨now, -, htick⟩ | ⟨-, hx⟩ | ⟨-, -, b, -, rfl⟩ | ⟨-, -, r, -, rfl⟩
  · obtain ⟨hwait, rfl⟩ := hu.enters_success ht hs
    exact ⟨hwait, hi⟩
  · rcases htick.state_cases with he | he
    · exact absurd (he.symm.trans ht) hs
    · cases he.symm.trans ht
  · rcases hx.state_cases with he | he
    · exact absurd (he.symm.trans ht) hs
    · cases he.symm.trans ht
  · exact absurd ht hs
  · exact absurd ht hs

/-- Settles O12, by R113: the state it goes to is the one it is in. -/
theorem feedNoiseIsIgnored : Obligations.FeedNoiseIsIgnored := by
  intro s b hs hstd hext heot
  have hframe : ports { s with state := .awaitHandshakeOrHeader } [] (some (.feed false)) [.framingDesync] =
      ports s [] (some (.feed false)) [.framingDesync] := by rw [State.with_state_eq hs]
  exact exec_feed_and_row s (.awNoise hs ((isHeader_eq_false_iff b).mpr ⟨hstd, hext⟩) heot) rfl hframe

/-- Settles O13, by R114. -/
theorem feedNextBlockNumberIsAccepted : Obligations.FeedNextBlockNumberIsAccepted :=
  fun s _ hs hb => exec_feed_and_row s (.bnNext hs hb) rfl rfl

/-- Settles O14, by R115. -/
theorem feedDuplicateBlockNumberIsAccepted : Obligations.FeedDuplicateBlockNumberIsAccepted :=
  fun s _ hs hn hb => exec_feed_and_row s (.bnDup hs hn hb) rfl rfl

/-- Settles O15, by R116 for a header marker, which stays, and R117 for any other byte. -/
theorem feedOtherBlockNumberResynchronises : Obligations.FeedOtherBlockNumberResynchronises := by
  refine fun s hs => ⟨fun h hh hn hd => ?_, fun b hn hd hstd hext => ?_⟩
  · refine exec_feed_and_row s (.bnHeader hs hn hd (headerByte_isHeader h hh).1) rfl ?_
    rw [← sizeOfHeader_setWidth h hh]
    simp only [hs]
    rfl
  · exact exec_feed_and_row s (.bnOther hs hn hd ((isHeader_eq_false_iff b).mpr ⟨hstd, hext⟩)) rfl rfl

/-- Settles O16, by R118. -/
theorem feedComplementOpensThePayload : Obligations.FeedComplementOpensThePayload :=
  fun s _ hs hb => exec_feed_and_row s (.bcMatch hs hb) rfl rfl

/-- Settles O17, by R119 for a header marker and R120 for any other byte. -/
theorem feedWrongComplementResynchronises : Obligations.FeedWrongComplementResynchronises := by
  refine fun s hs => ⟨fun h hh hn => ?_, fun b hn hstd hext => ?_⟩
  · refine exec_feed_and_row s (.bcHeader hs hn (headerByte_isHeader h hh).1) rfl ?_
    rw [← sizeOfHeader_setWidth h hh]
    rfl
  · exact exec_feed_and_row s (.bcOther hs hn ((isHeader_eq_false_iff b).mpr ⟨hstd, hext⟩)) rfl rfl

/-- Settles O18, by R121: the buffer with the byte put at the old `fill_position`. -/
theorem feedStoresAPayloadByte : Obligations.FeedStoresAPayloadByte := by
  intro s b hs hi
  refine ⟨s.packetBuffer.put s.fillPosition.toNat b, exec_feed_and_row s (.data hs hi) rfl ?_,
    Memory.read_put_same _ b hi, fun a ha => Memory.read_put_other _ b ha⟩
  rw [State.dataStored_eq]
  simp only [State.clearPorts_state, State.clearPorts_fillPosition, State.clearPorts_packetSize, hs]
  by_cases hl : s.fillPosition + 1#11 = s.packetSize
  · simp only [if_pos hl]; rfl
  · simp only [if_neg hl]; rfl

/-- Settles O20, by R122. -/
theorem feedHighCrcByteIsLatched : Obligations.FeedHighCrcByteIsLatched := by
  intro s b hs
  refine exec_feed_and_row s (.crcHigh hs) rfl ?_
  rw [append_zero_byte_eq_shiftLeft]
  rfl

/-- Settles O21, by R123 with the payload that the buffer holds. -/
theorem feedCrcMismatchIsNacked : Obligations.FeedCrcMismatchIsNacked :=
  fun s _ p hs hp hc =>
    exec_feed_and_row s (.crcBad p hs ((s.holdsPayload_iff_payload p).mp hp) hc) rfl rfl

/-- Settles O22, by R124 with the payload that the buffer holds. -/
theorem feedCrcMatchMakesThePacketReady : Obligations.FeedCrcMatchMakesThePacketReady :=
  fun s _ p hs hp hc =>
    exec_feed_and_row s (.crcOk p hs ((s.holdsPayload_iff_payload p).mp hp) hc) rfl rfl

/-- Settles O23, by R125. -/
theorem feedIsIgnoredWhileAPacketWaits : Obligations.FeedIsIgnoredWhileAPacketWaits := by
  intro s b hs
  have hready : s.clearPorts.packetReady = true := beq_iff_eq.mpr hs
  exact exec_feed_and_row s (.ignored (.inl hs)) rfl (by rw [hready, State.clearPorts_answer_eq_ports])

/-- Settles O24, by R126. -/
theorem feedIsIgnoredInTerminalStates : Obligations.FeedIsIgnoredInTerminalStates := by
  intro s b hs
  have hready : s.clearPorts.packetReady = false := beq_eq_false_iff_ne.mpr (by rcases hs with hs | hs <;> simp [hs])
  exact exec_feed_and_row s (.ignored (.inr hs)) rfl (by rw [hready, State.clearPorts_answer_eq_ports])

end Sys2Proof.Proofs
end

section
/-! TICK and EXTRACT, arm by arm (42_tick.md R141 to R148, 43_extract_and_queries.md R160 to R162): the arm that the state
selects, and what it leaves. -/

namespace Sys2Proof.Machine

open Sys2Proof Sys2Proof.Safety

/-- A TICK whose arm is known leaves the arm's state. -/
theorem exec_tick_of_arm {s t : State} {now : Time} (h : TickArm s.clearPorts now t) : exec (.tick now) s = .next t :=
  congrArg Host.Outcome.next h.tickArms_eq

/-- An EXTRACT whose arm is known leaves the arm's state. -/
theorem exec_extract_of_arm {s t : State} (h : ExtractArm s.clearPorts t) : exec .extract s = .next t :=
  h.extractArms_eq

/-- The interval of the phase, with the phase written out (42_tick.md R145). -/
theorem State.interval_eq (s : State) :
    s.interval = if s.state = .awaitHandshakeOrHeader ∧ s.blockSeen = false then s.cfg.handshakeIntervalMs
      else s.cfg.retryIntervalMs := by
  simp only [State.interval, State.preHandshake_iff]

/-- The control byte of the phase, with the phase written out (42_tick.md R146). -/
theorem State.stallByte_eq (s : State) :
    s.stallByte = if s.state = .awaitHandshakeOrHeader ∧ s.blockSeen = false then 0x43#8 else s.cfg.nackByte := by
  simp only [State.stallByte, State.preHandshake_iff]
  rfl

theorem State.stalled_eq_false_iff (s : State) (now : Time) :
    s.stalled now = false ↔ (now - s.lastActivityTime).toNat ≤ s.interval := by
  rw [← Bool.not_eq_true, State.stalled_iff, not_lt]

theorem State.errorsExceeded_eq_false_iff (s : State) :
    s.errorsExceeded = false ↔ s.errorCount.toNat ≤ s.cfg.maxErrors.val := by
  rw [← Bool.not_eq_true, State.errorsExceeded_iff, not_lt]

theorem State.finished_eq_false {s : State} (hs : s.state ≠ .success) (hf : s.state ≠ .failure) :
    s.finished = false := by
  rw [← Bool.not_eq_true, State.finished_iff]
  exact not_or.mpr ⟨hs, hf⟩

end Sys2Proof.Machine

namespace Sys2Proof.Proofs

open Sys2Proof Sys2Proof.Machine Sys2Proof.Safety

/-! ### TICK -/

/-- Settles O26, by R141. -/
theorem tickIsANoOpInTerminalStates : Obligations.TickIsANoOpInTerminalStates :=
  fun s _ hs => exec_tick_of_arm (.terminal (s.finished_iff.mpr hs))

/-- Settles O27, by R142; the phase decides the emission. -/
theorem firstTickInitiatesTheHandshake : Obligations.FirstTickInitiatesTheHandshake := by
  intro s now hs hf hv
  rw [exec_tick_of_arm (.first (State.finished_eq_false hs hf) hv), State.tickFirst_eq]
  simp only [State.clearPorts_preHandshake, State.preHandshake_iff]
  rfl

/-- Settles O28, by R143. -/
theorem tickWhileAPacketWaitsLatchesTheTime : Obligations.TickWhileAPacketWaitsLatchesTheTime :=
  fun _ _ hs hv => exec_tick_of_arm (.holding hv hs)

/-- Settles O29, by R148 without a stall and with the count within its bound. -/
theorem tickWithinTheIntervalOnlyLatches : Obligations.TickWithinTheIntervalOnlyLatches := by
  intro s now hs hf hp hv hq he
  rw [← State.interval_eq] at hq
  exact exec_tick_of_arm (.quiet (s.active_iff.mpr ⟨hs, hf, hp⟩) hv ((s.stalled_eq_false_iff now).mpr hq)
    (s.errorsExceeded_eq_false_iff.mpr he))

/-- Settles O30, by R148 with a stall that leaves the count within its bound. -/
theorem tickStallResendsTheControlByte : Obligations.TickStallResendsTheControlByte := by
  intro s now hs hf hp hv hq he
  rw [← State.interval_eq] at hq
  rw [← State.stallByte_eq, exec_tick_of_arm (.resends (s.active_iff.mpr ⟨hs, hf, hp⟩) hv
    ((s.stalled_iff now).mpr hq) (s.countError.errorsExceeded_eq_false_iff.mpr he)), State.tickResends_eq]
  rfl

/-- Settles O31, by R147 after a stall and without one. -/
theorem tickBeyondMaxErrorsFails : Obligations.TickBeyondMaxErrorsFails := by
  intro s now hs hf hp hv
  have ha : s.active = true := s.active_iff.mpr ⟨hs, hf, hp⟩
  rw [← State.interval_eq]
  refine ⟨fun hq he => ?_, fun hq he => ?_⟩
  · rw [exec_tick_of_arm (.stallFails ha hv ((s.stalled_iff now).mpr hq) (s.countError_errorsExceeded_iff.mpr he)),
      State.tickStallFails_eq]
    rfl
  · rw [exec_tick_of_arm (.quietFails ha hv ((s.stalled_eq_false_iff now).mpr hq) (s.errorsExceeded_iff.mpr he)),
      State.tickQuietFails_eq]
    rfl

/-! ### EXTRACT -/

/-- Settles O32, by R162 without a packet. -/
theorem extractWithoutAPacketChangesNothing : Obligations.ExtractWithoutAPacketChangesNothing :=
  fun _ hs => exec_extract_of_arm (.nothing hs)

/-- Settles O33, by R160 with the payload that the buffer holds. -/
theorem extractDeliversANewBlock : Obligations.ExtractDeliversANewBlock :=
  fun s p hs hd hc hp => exec_extract_of_arm (.deliver p hs hd hc ((s.holdsPayload_iff_payload p).mp hp))

/-- Settles O34, by R161. -/
theorem extractDiscardsADuplicate : Obligations.ExtractDiscardsADuplicate :=
  fun _ hs hd => exec_extract_of_arm (.discard hs hd)

/-- Settles O35: R160 tests the destination before it reads the payload. -/
theorem extractRefusesASmallDestination : Obligations.ExtractRefusesASmallDestination := by
  intro s hs hd hc
  show s.clearPorts.extractArms = _
  simp [State.extractArms, State.packetReady, State.deliver, hs, hd, hc]

end Sys2Proof.Proofs
end

section
/-! The remaining rows (30_encoding.md R71, R81, R84), the step on each kind of input (20_memory.md R63), and the reset
values (10_state.md R44). -/

namespace Sys2Proof.Machine

open Sys2Proof

/-- A step with an operation at the head of the pending inputs runs its instruction on the state with that input
taken. -/
theorem step_of_instructionOf {s : State} {i : Input} {rest : List Input} {instr : Instr} (h : s.input = i :: rest)
    (hi : s.instructionOf i = some instr) : step s = exec instr (s.consumed rest) := by
  simp [step, h, hi]

/-- A step with an input that is no operation does what the outside does. -/
theorem step_of_outside {s : State} {i : Input} {rest : List Input} (h : s.input = i :: rest)
    (hi : s.instructionOf i = none) : step s = .next ((s.consumed rest).fromOutside i) := by
  simp [step, h, hi]

end Sys2Proof.Machine

namespace Sys2Proof.Proofs

open Sys2Proof Sys2Proof.Machine Sys2Proof.Safety

/-- Settles O1, by the kind of the head input; a word of the table is presented as the input that it is. -/
theorem stepRunsTheDecodedInput : Obligations.StepRunsTheDecodedInput := by
  intro s rest
  refine ⟨fun w h => step_of_instructionOf h rfl, fun b h => step_of_instructionOf h rfl,
    fun h => step_of_outside h rfl, fun n h => step_of_outside h rfl, fun w hw => ?_, fun w hw => ?_⟩
  · have ht : tableInput 40 w = some (.cmd35 (BitVec.ofNat 35 w)) := by rw [tableInput, if_neg (by omega), if_pos hw]
    have hi : inputOfWord 40 w = .command (BitVec.ofNat 35 w) := by rw [inputOfWord, ht]
    rw [State.withFetchWord, hi, step_present_command]
  · have ht : tableInput 8 w = some (.wireIn8 (BitVec.ofNat 8 w)) := if_pos ⟨le_rfl, hw⟩
    have hi : inputOfWord 8 w = .wireByte (BitVec.ofNat 8 w) := by rw [inputOfWord, ht]
    rw [State.withFetchWord, hi, step_present_wireByte]

/-- Settles O3: closed values, and a buffer that lists nothing reads nothing. -/
theorem resetLeavesTheTableOfResetValues : Obligations.ResetLeavesTheTableOfResetValues :=
  ⟨rfl, rfl, rfl, rfl, rfl, rfl, rfl, rfl, rfl, rfl, rfl, rfl, fun _ h => if_pos h, rfl⟩

/-- Settles O38, by `exec_eq_qstate_of_encode` for each of the nine rows. -/
theorem stateCodeRowsAnswerTheirCode : Obligations.StateCodeRowsAnswerTheirCode := by
  intro s row f code hmem
  obtain ⟨hcode, hword⟩ : f.code = code ∧ encode 0#8 row = .state4 f.code := by
    simp only [List.mem_cons, Prod.mk.injEq, List.not_mem_nil, or_false] at hmem
    rcases hmem with ⟨rfl, rfl, rfl⟩ | ⟨rfl, rfl, rfl⟩ | ⟨rfl, rfl, rfl⟩ | ⟨rfl, rfl, rfl⟩ | ⟨rfl, rfl, rfl⟩ |
      ⟨rfl, rfl, rfl⟩ | ⟨rfl, rfl, rfl⟩ | ⟨rfl, rfl, rfl⟩ | ⟨rfl, rfl, rfl⟩ <;> exact ⟨rfl, rfl⟩
  have hrow : exec row s = exec .qstate s := exec_eq_qstate_of_encode hword s
  refine ⟨hcode, fun hs => ?_, hrow⟩
  rw [hrow, qstateAnswersTheStateCode s, hs, hcode]

/-- Settles O39: the row is the emission on cleared ports. -/
theorem emittedByteRowsEmitTheirByte : Obligations.EmittedByteRowsEmitTheirByte :=
  fun _ => ⟨rfl, rfl, rfl⟩

/-- Settles O40: the three codes decode to their rows, whatever the operand, and each row is refused. -/
theorem reservedCommandsAreRefused : Obligations.ReservedCommandsAreRefused := by
  intro s arg
  obtain ⟨-, -, -, -, -, h5, h6, h7⟩ := decodeCommand_commandWord arg
  refine ⟨rfl, rfl, rfl, ?_, ?_, ?_⟩
  · rw [step_present_command, h5]; rfl
  · rw [step_present_command, h6]; rfl
  · rw [step_present_command, h7]; rfl

end Sys2Proof.Proofs
end

section
/-! The rules of the whole machine: what each arm of byte intake, TICK and EXTRACT emits, writes and leaves
(10_state.md R45), and from that what any instruction does. -/

namespace Sys2Proof.Machine

open Sys2Proof Sys2Proof.Safety

/-! ### What the arms emit (30_encoding.md R71) -/

theorem FeedArm.tx_cases {s u : State} {b : Byte} (h : FeedArm s b u) :
    u.tx = s.tx ∨ u.tx = s.tx ++ [ackByte] ∨ u.tx = s.tx ++ [s.cfg.nackByte] := by
  cases h with
  | awEot => exact .inr (.inl rfl)
  | crcBad => exact .inr (.inr rfl)
  | data => rw [State.dataStored_eq]; exact .inl rfl
  | awHeader | awNoise | bnNext | bnDup | bnHeader | bnOther | bcMatch | bcHeader | bcOther | crcHigh | crcOk | ignored =>
    exact .inl rfl

theorem TickArm.tx_cases {s t : State} {now : Time} (h : TickArm s now t) :
    t.tx = s.tx ∨ t.tx = s.tx ++ [handshakeByte] ∨ t.tx = s.tx ++ [s.cfg.nackByte] := by
  cases h with
  | first =>
    rw [State.tickFirst_eq]
    by_cases hp : s.preHandshake = true
    · exact .inr (.inl (if_pos hp))
    · exact .inl (if_neg hp)
  | resends =>
    rw [State.tickResends_eq, State.stallByte]
    by_cases hp : s.preHandshake = true
    · exact .inr (.inl (by rw [if_pos hp]))
    · exact .inr (.inr (by rw [if_neg hp]))
  | terminal | holding | quiet | quietFails | stallFails => exact .inl rfl

theorem ExtractArm.tx_cases {s t : State} (h : ExtractArm s t) : t.tx = s.tx ∨ t.tx = s.tx ++ [ackByte] := by
  cases h with
  | nothing => exact .inl rfl
  | deliver | discard => exact .inr rfl

/-! ### What the arms leave unchanged (10_state.md R45, R36) -/

/-- Byte intake writes no block number, no time and nothing of the caller's. -/
theorem FeedArm.frame {s u : State} {b : Byte} (h : FeedArm s b u) :
    u.expectedBlock = s.expectedBlock ∧ u.currentTime = s.currentTime ∧ u.timeValid = s.timeValid ∧
      u.cfg = s.cfg ∧ u.input = s.input ∧ u.destCapacity = s.destCapacity := by
  cases h with
  | data => rw [State.dataStored_eq]; exact ⟨rfl, rfl, rfl, rfl, rfl, rfl⟩
  | awHeader | awEot | awNoise | bnNext | bnDup | bnHeader | bnOther | bcMatch | bcHeader | bcOther | crcHigh | crcBad
  | crcOk | ignored => exact ⟨rfl, rfl, rfl, rfl, rfl, rfl⟩

/-- TICK writes the state, the count of errors, the times and the ports, and nothing else. -/
theorem TickArm.frame {s t : State} {now : Time} (h : TickArm s now t) :
    t = { s with state := t.state, lastActivityTime := t.lastActivityTime, errorCount := t.errorCount
                 currentTime := t.currentTime, timeValid := t.timeValid, tx := t.tx, events := t.events } := by
  cases h with
  | first => rw [State.tickFirst_eq]
  | resends => rw [State.tickResends_eq]
  | stallFails => rw [State.tickStallFails_eq]
  | terminal | holding | quiet | quietFails => rfl

/-- EXTRACT writes the state, the block number, the stamp, the count of errors and the ports, and nothing else. -/
theorem ExtractArm.frame {s t : State} (h : ExtractArm s t) :
    t = { s with state := t.state, expectedBlock := t.expectedBlock, lastActivityTime := t.lastActivityTime
                 errorCount := t.errorCount, tx := t.tx, response := t.response, events := t.events } := by
  cases h <;> rfl

/-- A waiting packet and the terminal states ignore every byte (41_feed_byte.md R125, R126). -/
theorem FeedArm.eq_of_ignoring {s u : State} {b : Byte} (h : FeedArm s b u)
    (hs : s.state = .packetReady ∨ s.state = .success ∨ s.state = .failure) : u = s := by
  cases h with
  | ignored => rfl
  | awHeader hf | awEot hf | awNoise hf | bnNext hf | bnDup hf | bnHeader hf | bnOther hf | bcMatch hf | bcHeader hf
  | bcOther hf | data hf | crcHigh hf | crcBad p hf | crcOk p hf => simp [hf] at hs

/-- The terminal states ignore a TICK (42_tick.md R141). -/
theorem TickArm.eq_of_finished {s t : State} {now : Time} (h : TickArm s now t) (hs : s.finished = true) : t = s :=
  h.tickArms_eq.symm.trans (TickArm.terminal hs).tickArms_eq

/-- Without a packet EXTRACT answers that nothing is available (43_extract_and_queries.md R162). -/
theorem ExtractArm.eq_of_not_packetReady {s t : State} (h : ExtractArm s t) (hs : s.state ≠ .packetReady) :
    t = s.answer .nothingAvailable := by
  cases h with
  | nothing => rfl
  | deliver p hp => exact absurd hp hs
  | discard hp => exact absurd hp hs

/-- A waiting packet goes to the header wait, with ACK (43_extract_and_queries.md R160, R161). -/
theorem ExtractArm.of_packetReady {s t : State} (h : ExtractArm s t) (hs : s.state = .packetReady) :
    t.state = .awaitHandshakeOrHeader ∧ t.tx = s.tx ++ [ackByte] := by
  cases h with
  | nothing hn => exact absurd hs hn
  | deliver | discard => exact ⟨rfl, rfl⟩

/-- A TICK leaves a waiting packet waiting (42_tick.md R143). -/
theorem TickArm.state_of_packetReady {s t : State} {now : Time} (h : TickArm s now t) (hs : s.state = .packetReady) :
    t.state = .packetReady := by
  have hna : s.active ≠ true := fun ha => ((State.active_iff s).mp ha).2.2 hs
  cases h with
  | terminal | holding => exact hs
  | first => rw [State.tickFirst_eq]; exact hs
  | quiet ha | quietFails ha | resends ha | stallFails ha => exact absurd ha hna

/-! ### The buffer and the flags -/

/-- A payload byte alone writes the buffer, at the old `fill_position` (20_memory.md R52). -/
theorem FeedArm.buffer_cases {s u : State} {b : Byte} (h : FeedArm s b u) :
    u.packetBuffer = s.packetBuffer ∨
    (s.state = .receivingData ∧ s.fillPosition.toNat < bufCap ∧ u.fillPosition = s.fillPosition + 1#11 ∧
      u.packetBuffer = s.packetBuffer.put s.fillPosition.toNat b) := by
  cases h with
  | data hs hi => rw [State.dataStored_eq]; exact .inr ⟨hs, hi, rfl, rfl⟩
  | awHeader | awEot | awNoise | bnNext | bnDup | bnHeader | bnOther | bcMatch | bcHeader | bcOther | crcHigh | crcBad
  | crcOk | ignored => exact .inl rfl

/-- The block number decides the duplicate flag (10_state.md R28). -/
theorem FeedArm.isDuplicateBlock_cases {s u : State} {b : Byte} (h : FeedArm s b u) :
    u.isDuplicateBlock = s.isDuplicateBlock ∨
    (s.state = .expectBlockNum ∧ u.state = .expectBlockNumComplement) := by
  cases h with
  | bnNext hs | bnDup hs => exact .inr ⟨hs, rfl⟩
  | data => rw [State.dataStored_eq]; exact .inl rfl
  | awHeader | awEot | awNoise | bnHeader | bnOther | bcMatch | bcHeader | bcOther | crcHigh | crcBad | crcOk
  | ignored => exact .inl rfl

/-- A matching CRC sets `block_seen` (10_state.md R33). -/
theorem FeedArm.blockSeen_cases {s u : State} {b : Byte} (h : FeedArm s b u) :
    u.blockSeen = s.blockSeen ∨ (u.blockSeen = true ∧ s.state = .expectCrcLow ∧ u.state = .packetReady) := by
  cases h with
  | crcOk p hs => exact .inr ⟨rfl, hs, rfl⟩
  | data => rw [State.dataStored_eq]; exact .inl rfl
  | awHeader | awEot | awNoise | bnNext | bnDup | bnHeader | bnOther | bcMatch | bcHeader | bcOther | crcHigh | crcBad
  | ignored => exact .inl rfl

/-- A TICK that sets `time_valid` latches its time (10_state.md R34). -/
theorem TickArm.timeValid_cases {s t : State} {now : Time} (h : TickArm s now t) :
    t.timeValid = s.timeValid ∨ (t.timeValid = true ∧ t.currentTime = now) := by
  cases h with
  | first => rw [State.tickFirst_eq]; exact .inr ⟨rfl, rfl⟩
  | terminal | holding | quiet | quietFails | resends | stallFails => exact .inl rfl

/-! ### The events and the count of errors -/

/-- On the way from `s` to `t` the event `e` was not noted. -/
def NotNoted (e : Event) (s t : State) : Prop := ∃ ev, t.events = s.events ++ ev ∧ e ∉ ev

theorem NotNoted.of_events_eq {e : Event} {s t : State} (h : t.events = s.events) : NotNoted e s t :=
  ⟨[], h.trans (List.append_nil _).symm, List.not_mem_nil⟩

theorem NotNoted.of_other {e e' : Event} {s t : State} (h : t.events = s.events ++ [e']) (hne : e ≠ e') :
    NotNoted e s t :=
  ⟨[e'], h, by simpa using hne⟩

/-- An operation starts with no events, so that it holds only what it noted. -/
theorem NotNoted.not_mem {e : Event} {s t : State} (h : NotNoted e s.clearPorts t) : e ∉ t.events := by
  obtain ⟨ev, hev, hne⟩ := h
  rwa [hev]

/-- A payload byte forgives, a mismatch counts, and no other byte touches the count (10_state.md R30, R40). -/
theorem FeedArm.errorCount_cases {s u : State} {b : Byte} (h : FeedArm s b u) :
    (u.errorCount = s.errorCount ∧ s.state ≠ .receivingData ∧ NotNoted .stall s u ∧ NotNoted .crcMismatch s u) ∨
    (u.errorCount = 0#8 ∧ s.state = .receivingData) ∨
    (u.errorCount = s.errorCount + 1#8 ∧ s.state = .expectCrcLow ∧ u.state = .awaitHandshakeOrHeader ∧
      u.events = s.events ++ [.crcMismatch] ∧ u.tx = s.tx ++ [s.cfg.nackByte] ∧ u.receivedCrc ≠ u.computedCrc) := by
  cases h with
  | data hs => rw [State.dataStored_eq]; exact .inr (.inl ⟨rfl, hs⟩)
  | crcBad p hs hp hc => exact .inr (.inr ⟨rfl, hs, rfl, rfl, rfl, hc⟩)
  | awEot hs | bnDup hs | awNoise hs | bnHeader hs | bnOther hs | bcHeader hs | bcOther hs =>
    exact .inl ⟨rfl, by simp [hs], .of_other rfl (by decide), .of_other rfl (by decide)⟩
  | awHeader hs | bnNext hs | bcMatch hs | crcHigh hs | crcOk p hs =>
    exact .inl ⟨rfl, by simp [hs], .of_events_eq rfl, .of_events_eq rfl⟩
  | ignored hs =>
    exact .inl ⟨rfl, by rcases hs with hs | hs | hs <;> simp [hs], .of_events_eq rfl, .of_events_eq rfl⟩

/-- A stall counts, in an active state alone (42_tick.md R148, R149). -/
theorem TickArm.errorCount_cases {s t : State} {now : Time} (h : TickArm s now t) :
    (t.errorCount = s.errorCount ∧ NotNoted .stall s t ∧ NotNoted .crcMismatch s t) ∨
    (t.errorCount = s.errorCount + 1#8 ∧ s.active = true ∧ Event.stall ∈ t.events) := by
  cases h with
  | first => rw [State.tickFirst_eq]; exact .inl ⟨rfl, .of_events_eq rfl, .of_events_eq rfl⟩
  | terminal | holding | quiet => exact .inl ⟨rfl, .of_events_eq rfl, .of_events_eq rfl⟩
  | quietFails => exact .inl ⟨rfl, .of_other rfl (by decide), .of_other rfl (by decide)⟩
  | resends ha => rw [State.tickResends_eq]; exact .inr ⟨rfl, ha, by simp⟩
  | stallFails ha => rw [State.tickStallFails_eq]; exact .inr ⟨rfl, ha, by simp⟩

/-- A delivery forgives, a discarded duplicate does not (10_state.md R40). -/
theorem ExtractArm.errorCount_cases {s t : State} (h : ExtractArm s t) :
    (t.errorCount = s.errorCount ∧ t.response = some .nothingAvailable ∧ NotNoted .stall s t ∧
      NotNoted .crcMismatch s t) ∨
    (t.errorCount = 0#8 ∧ ∃ n len p, t.response = some (.delivered n len p)) := by
  cases h with
  | nothing => exact .inl ⟨rfl, rfl, .of_events_eq rfl, .of_events_eq rfl⟩
  | deliver => exact .inr ⟨rfl, _, _, _, rfl⟩
  | discard => exact .inl ⟨rfl, rfl, .of_other rfl (by decide), .of_other rfl (by decide)⟩

/-! ### FAILURE (60_exceptions.md R185) -/

/-- Byte intake neither enters FAILURE nor meets MaxErrorsExceeded. -/
theorem FeedArm.not_fails {s u : State} {b : Byte} (h : FeedArm s b u) (hs : s.state ≠ .failure) :
    u.state ≠ .failure ∧ NotNoted .maxErrorsExceeded s u := by
  cases h with
  | data hd =>
    rw [State.dataStored_eq]
    refine ⟨?_, .of_events_eq rfl⟩
    simp only [hd]
    split <;> decide
  | ignored => exact ⟨hs, .of_events_eq rfl⟩
  | awHeader | bnNext | bcMatch | crcHigh | crcOk => exact ⟨nofun, .of_events_eq rfl⟩
  | awEot | awNoise | bnDup | bnHeader | bnOther | bcHeader | bcOther | crcBad =>
    exact ⟨nofun, .of_other rfl (by decide)⟩

/-- A TICK enters FAILURE with MaxErrorsExceeded, a count above `MAX_ERRORS` and no emission, or not at all. -/
theorem TickArm.fails_cases {s t : State} {now : Time} (h : TickArm s now t) (hs : s.state ≠ .failure) :
    (t.state ≠ .failure ∧ NotNoted .maxErrorsExceeded s t) ∨
    (t.state = .failure ∧ Event.maxErrorsExceeded ∈ t.events ∧ t.cfg.maxErrors.val < t.errorCount.toNat ∧
      t.tx = s.tx) := by
  cases h with
  | terminal | holding | quiet => exact .inl ⟨hs, .of_events_eq rfl⟩
  | first => rw [State.tickFirst_eq]; exact .inl ⟨hs, .of_events_eq rfl⟩
  | resends => rw [State.tickResends_eq]; exact .inl ⟨hs, .of_other rfl (by decide)⟩
  | quietFails _ _ _ he => exact .inr ⟨rfl, by simp, s.errorsExceeded_iff.mp he, rfl⟩
  | stallFails _ _ _ he => exact .inr ⟨rfl, by simp, s.countError_errorsExceeded_iff.mp he, rfl⟩

/-- EXTRACT neither enters FAILURE nor meets MaxErrorsExceeded. -/
theorem ExtractArm.not_fails {s t : State} (h : ExtractArm s t) (hs : s.state ≠ .failure) :
    t.state ≠ .failure ∧ NotNoted .maxErrorsExceeded s t := by
  cases h with
  | nothing => exact ⟨hs, .of_events_eq rfl⟩
  | deliver => exact ⟨nofun, .of_events_eq rfl⟩
  | discard => exact ⟨nofun, .of_other rfl (by decide)⟩

/-- In an active state whose clock runs, a TICK that leaves more than `MAX_ERRORS` errors fails (42_tick.md R147). -/
theorem TickArm.fails_of_excess {s t : State} {now : Time} (h : TickArm s now t) (ha : s.active = true)
    (hv : s.timeValid = true) (he : t.cfg.maxErrors.val < t.errorCount.toNat) : t.state = .failure := by
  cases h with
  | quietFails | stallFails => rfl
  | terminal hf => simp [State.finished_of_active ha] at hf
  | first _ hv' => simp [hv] at hv'
  | holding _ hp => exact absurd hp ((State.active_iff s).mp ha).2.2
  | quiet _ _ _ hq => exact absurd he (Nat.not_lt.mpr (s.errorsExceeded_eq_false_iff.mp hq))
  | resends _ _ _ hq => exact absurd he (Nat.not_lt.mpr (s.countError.errorsExceeded_eq_false_iff.mp hq))

end Sys2Proof.Machine

namespace Sys2Proof.Proofs

open Sys2Proof Sys2Proof.Machine Sys2Proof.Safety

/-- Byte intake is no EXTRACT. -/
theorem ne_extract_of_byteIntake {i : Instr} {nack b : Byte} (h : i = .feed b ∨ encode nack i = .wireIn8 b) :
    i ≠ .extract := by
  rintro rfl
  rcases h with h | h <;> cases h

/-- A TICK is no byte intake. -/
theorem tick_not_byteIntake (now : Time) (nack : Byte) :
    ¬ ∃ b, Instr.tick now = .feed b ∨ encode nack (.tick now) = .wireIn8 b := by
  simp [encode]

/-- EXTRACT is no byte intake. -/
theorem extract_not_byteIntake (nack : Byte) : ¬ ∃ b, Instr.extract = .feed b ∨ encode nack .extract = .wireIn8 b := by
  simp [encode]

/-- Settles O41, by what the arms add to the empty output list. -/
theorem atMostOneControlByteIsEmitted : Obligations.AtMostOneControlByteIsEmitted := by
  intro i s t h
  rcases exec_next h with ⟨b, -, u, hu, rfl⟩ | ⟨now, -, ht⟩ | ⟨-, hx⟩ | ⟨-, -, b, hb, rfl⟩ | ⟨-, -, r, -, rfl⟩
  · rcases hu.tx_cases with he | he | he
    · exact .inl he
    · exact .inr (.inl he)
    · exact .inr (.inr (.inl he))
  · rcases ht.tx_cases with he | he | he
    · exact .inl he
    · exact .inr (.inr (.inr he))
    · exact .inr (.inr (.inl he))
  · rcases hx.tx_cases with he | he
    · exact .inl he
    · exact .inr (.inl he)
  · rcases hb with rfl | rfl | rfl
    · exact .inr (.inl rfl)
    · exact .inr (.inr (.inl rfl))
    · exact .inr (.inr (.inr rfl))
  · exact .inl rfl

/-- Settles O42, by the frame of each operation. -/
theorem operationsKeepTheWriteMatrix : Obligations.OperationsKeepTheWriteMatrix := by
  intro s t
  refine ⟨fun b h => ?_, fun now h => ?_, fun h => ?_, fun h => ?_⟩
  · obtain ⟨u, hu, rfl⟩ := State.feedByte_next h
    exact hu.frame
  · cases h
    have ht := s.clearPorts.tickArms_cases now
    generalize s.clearPorts.tickArms now = t at ht
    rw [ht.frame]
    exact ⟨rfl, ht.state_cases, rfl, rfl⟩
  · have hx := State.extractArms_next h
    rw [hx.frame]
    exact ⟨rfl, hx.state_cases, rfl, rfl⟩
  · rcases h with h | h <;> cases h <;> exact ⟨rfl, rfl, rfl⟩

/-- A terminal Session is left as it is by every instruction (the spec's decision D23). -/
theorem sameSession_of_terminal {i : Instr} {s t : State} (hs : s.state = .success ∨ s.state = .failure)
    (h : exec i s = .next t) : SameSession s t := by
  rcases exec_next h with ⟨b, -, u, hu, rfl⟩ | ⟨now, -, ht⟩ | ⟨-, hx⟩ | ⟨-, -, b, -, rfl⟩ | ⟨-, -, r, -, rfl⟩
  · rw [hu.eq_of_ignoring (.inr hs)]; rfl
  · rw [ht.eq_of_finished (s.finished_iff.mpr hs)]; rfl
  · rw [hx.eq_of_not_packetReady (by rcases hs with hs | hs <;> simp [hs])]; rfl
  · rfl
  · rfl

/-- Settles O44: the instructions by the cases of `exec_next`, the steps by the cases of `step_cases`. -/
theorem terminalSessionsChangeOnlyByReset : Obligations.TerminalSessionsChangeOnlyByReset := by
  refine ⟨rfl, rfl, fun i s t h => ?_, fun s t hs h => ?_⟩
  · rcases exec_next h with ⟨b, hi, -⟩ | ⟨now, hi, -⟩ | ⟨hi, -⟩ | ⟨-, -, b, -, rfl⟩ | ⟨-, -, r, -, rfl⟩
    · exact .inr (hi.symm.imp (⟨b, ·⟩) fun hf => .inl ⟨b, hf⟩)
    · exact .inr (.inr (.inr (.inl ⟨now, hi⟩)))
    · exact .inr (.inr (.inr (.inr hi)))
    · exact .inl rfl
    · exact .inl rfl
  · rcases step_cases s with ⟨-, hstep⟩ | ⟨i, rest, instr, -, -, hstep⟩ | ⟨i, rest, hinput, -, hstep⟩
    · cases hstep.symm.trans h; exact .inl rfl
    · exact .inl (sameSession_of_terminal (s := s.consumed rest) hs (hstep.symm.trans h))
    · cases hstep.symm.trans h
      cases i with
      | reset => exact .inr ⟨rest, hinput⟩
      | command | wireByte | destination => exact .inl rfl

/-- Settles O45: in PACKET_READY byte intake is ignored, a TICK stays, and EXTRACT leaves with ACK. -/
theorem waitingPacketIsLeftOnlyByExtract : Obligations.WaitingPacketIsLeftOnlyByExtract := by
  intro i s t hs h
  rcases exec_next h with ⟨b, hi, u, hu, rfl⟩ | ⟨now, rfl, ht⟩ | ⟨rfl, hx⟩ | ⟨hi, -, b, -, rfl⟩ | ⟨hi, -, r, -, rfl⟩
  · rw [hu.eq_of_ignoring (.inl hs)]
    exact ⟨rfl, rfl, .inl ⟨ne_extract_of_byteIntake hi, hs⟩⟩
  · have hstate := ht.state_of_packetReady hs
    rw [ht.frame] at hstate ⊢
    exact ⟨rfl, rfl, .inl ⟨nofun, hstate⟩⟩
  · obtain ⟨hstate, htx⟩ := hx.of_packetReady hs
    rw [hx.frame] at hstate htx ⊢
    exact ⟨rfl, rfl, .inr ⟨rfl, hstate, htx⟩⟩
  · exact ⟨rfl, rfl, .inl ⟨hi, hs⟩⟩
  · exact ⟨rfl, rfl, .inl ⟨hi, hs⟩⟩

/-- Settles O46: of all that an instruction can do, only the payload byte's arm writes the buffer. -/
theorem bufferIsWrittenOnlyByPayloadBytes : Obligations.BufferIsWrittenOnlyByPayloadBytes := by
  intro i s t h
  rcases exec_next h with ⟨b, hi, u, hu, rfl⟩ | ⟨now, -, ht⟩ | ⟨-, hx⟩ | ⟨-, -, b, -, rfl⟩ | ⟨-, -, r, -, rfl⟩
  · rcases hu.buffer_cases with hbuffer | ⟨hs, hcap, hfill, hbuffer⟩
    · exact .inl hbuffer
    · refine .inr ⟨hs, hfill, b, hi, ?_, fun a ha => ?_⟩
      · rw [State.answer_packetBuffer, hbuffer]; exact Memory.read_put_same _ b hcap
      · rw [State.answer_packetBuffer, hbuffer]; exact Memory.read_put_other _ b ha
  · rw [ht.frame]; exact .inl rfl
  · rw [hx.frame]; exact .inl rfl
  · exact .inl rfl
  · exact .inl rfl

/-- Settles O47: byte intake writes two of the flags, a TICK the third. -/
theorem flagsChangeOnlyByTheirRules : Obligations.FlagsChangeOnlyByTheirRules := by
  intro i s t h
  rcases exec_next h with ⟨b, -, u, hu, rfl⟩ | ⟨now, rfl, ht⟩ | ⟨-, hx⟩ | ⟨-, -, b, -, rfl⟩ | ⟨-, -, r, -, rfl⟩
  · obtain ⟨-, -, hvalid, -⟩ := hu.frame
    exact ⟨hu.isDuplicateBlock_cases, hu.blockSeen_cases, .inl hvalid⟩
  · have hvalid := ht.timeValid_cases
    rw [ht.frame] at hvalid ⊢
    exact ⟨.inl rfl, .inl rfl, hvalid.imp_right fun ⟨hv, hc⟩ => ⟨hv, now, rfl, hc⟩⟩
  · rw [hx.frame]; exact ⟨.inl rfl, .inl rfl, .inl rfl⟩
  · exact ⟨.inl rfl, .inl rfl, .inl rfl⟩
  · exact ⟨.inl rfl, .inl rfl, .inl rfl⟩

/-- Settles O48, by the events and the count of each arm. -/
theorem errorCountFollowsItsEvents : Obligations.ErrorCountFollowsItsEvents := by
  intro i s t h byteIntake payloadByte delivery
  rcases exec_next h with ⟨b, hi, u, hu, rfl⟩ | ⟨now, rfl, ht⟩ | ⟨rfl, hx⟩ | ⟨hi, hn, b, -, rfl⟩ | ⟨hi, hn, r, -, rfl⟩
  · have hbyte : byteIntake := ⟨b, hi⟩
    have hdelivery : ¬ delivery := fun hd => ne_extract_of_byteIntake hi hd.1
    rcases hu.errorCount_cases with ⟨hc, hs, hstall, hcrc⟩ | ⟨hc, hs⟩ | ⟨hc, hs, hstate, hev, htx, hne⟩
    · exact .inl ⟨hc, fun hp => hs hp.1, hdelivery, hstall.not_mem, hcrc.not_mem⟩
    · exact .inr (.inl ⟨hc, .inl ⟨hs, hbyte⟩⟩)
    · exact .inr (.inr ⟨hc, .inl ⟨hs, hbyte, hstate, hev, htx, hne⟩⟩)
  · rcases ht.errorCount_cases with ⟨hc, hstall, hcrc⟩ | ⟨hc, ha, hstall⟩
    · exact .inl ⟨hc, fun hp => tick_not_byteIntake _ _ hp.2, nofun, hstall.not_mem, hcrc.not_mem⟩
    · exact .inr (.inr ⟨hc, .inr ⟨⟨now, rfl⟩, ha, hstall⟩⟩)
  · rcases hx.errorCount_cases with ⟨hc, hr, hstall, hcrc⟩ | ⟨hc, hr⟩
    · exact .inl ⟨hc, fun hp => extract_not_byteIntake _ hp.2, by simp [delivery, hr], hstall.not_mem, hcrc.not_mem⟩
    · exact .inr (.inl ⟨hc, .inr ⟨rfl, hr⟩⟩)
  · exact .inl ⟨rfl, fun hp => hn hp.2, fun hd => hi hd.1, List.not_mem_nil, List.not_mem_nil⟩
  · exact .inl ⟨rfl, fun hp => hn hp.2, fun hd => hi hd.1, List.not_mem_nil, List.not_mem_nil⟩

/-- Settles O49: only a TICK's failing arms enter FAILURE, and there every operation keeps the state and emits nothing. -/
theorem failureIsEnteredOnlyByExcessErrors : Obligations.FailureIsEnteredOnlyByExcessErrors := by
  refine ⟨fun i s t hs h => ?_, fun s t now ha hv h he => ?_, fun s op hs hop => ?_⟩
  · have stays : t.state ≠ .failure ∧ Event.maxErrorsExceeded ∉ t.events →
        (t.state = .failure ↔ Event.maxErrorsExceeded ∈ t.events) ∧
        (t.state = .failure → (∃ now, i = .tick now) ∧ t.cfg.maxErrors.val < t.errorCount.toNat ∧ t.tx = []) :=
      fun ⟨hn, hev⟩ => ⟨iff_of_false hn hev, fun hf => absurd hf hn⟩
    rcases exec_next h with ⟨b, -, u, hu, rfl⟩ | ⟨now, rfl, ht⟩ | ⟨-, hx⟩ | ⟨-, -, b, -, rfl⟩ | ⟨-, -, r, -, rfl⟩
    · exact stays ((hu.not_fails hs).imp_right NotNoted.not_mem)
    · rcases ht.fails_cases hs with hn | ⟨hf, hev, he, htx⟩
      · exact stays (hn.imp_right NotNoted.not_mem)
      · exact ⟨iff_of_true hf hev, fun _ => ⟨⟨now, rfl⟩, he, htx⟩⟩
    · exact stays ((hx.not_fails hs).imp_right NotNoted.not_mem)
    · exact stays ⟨hs, List.not_mem_nil⟩
    · exact stays ⟨hs, List.not_mem_nil⟩
  · cases h
    exact (s.clearPorts.tickArms_cases now).fails_of_excess ha hv he
  · have hnp : s.state ≠ .packetReady := by simp [hs]
    rcases hop with ⟨b, rfl⟩ | ⟨now, rfl⟩ | rfl | rfl | rfl
    · exact ⟨_, (feedIsIgnoredInTerminalStates s b (.inr hs)).1, hs, rfl⟩
    · exact ⟨_, tickIsANoOpInTerminalStates s now (.inr hs), hs, rfl⟩
    · exact ⟨_, extractWithoutAPacketChangesNothing s hnp, hs, rfl⟩
    · exact ⟨_, exec_qstate s, hs, rfl⟩
    · exact ⟨_, exec_qfin s, hs, rfl⟩

end Sys2Proof.Proofs
end

section
/-! The CRC engine's algebra (40_crc16.md R103): the update is linear and injective, and a byte in the low half of the
register is shifted into the high half. -/

namespace Sys2Proof.Machine

open Sys2Proof

/-! ### Linearity -/

/-- A shift as one exclusive or: the polynomial is folded in where bit 15 was set. -/
theorem crcShift_eq_xor (c : Crc) : crcShift c = (c <<< 1) ^^^ (if c.getLsbD 15 then crcPoly else 0#16) := by
  unfold crcShift
  split
  · rfl
  · exact BitVec.xor_zero.symm

theorem crcShift_xor (a b : Crc) : crcShift (a ^^^ b) = crcShift a ^^^ crcShift b := by
  have hfold : ∀ p q : Bool, (if p ^^ q then crcPoly else 0#16) =
      (if p then crcPoly else 0#16) ^^^ (if q then crcPoly else 0#16) := by decide
  rw [crcShift_eq_xor, crcShift_eq_xor, crcShift_eq_xor, BitVec.getLsbD_xor, BitVec.shiftLeft_xor_distrib, hfold]
  ac_rfl

theorem crcShifts_xor (n : Nat) (a b : Crc) : crcShifts n (a ^^^ b) = crcShifts n a ^^^ crcShifts n b := by
  induction n generalizing a b with
  | zero => rfl
  | succ n ih => simp only [crcShifts_succ, crcShift_xor, ih]

/-- The byte enters the register linearly. -/
theorem byteEntry_xor (x y : Byte) :
    ((x ^^^ y).setWidth 16 <<< 8 : Crc) = (x.setWidth 16 <<< 8) ^^^ (y.setWidth 16 <<< 8) := by
  rw [BitVec.setWidth_xor, BitVec.shiftLeft_xor_distrib]

theorem crc16Update_xor (a b : Crc) (x y : Byte) :
    crc16Update (a ^^^ b) (x ^^^ y) = crc16Update a x ^^^ crc16Update b y := by
  rw [crc16Update, crc16Update, crc16Update, ← crcShifts_xor, byteEntry_xor]
  congr 1
  ac_rfl

/-! ### Injectivity -/

theorem crcShift_injective : Function.Injective crcShift := Function.LeftInverse.injective crcUnshift_crcShift

theorem crcShifts_injective (n : Nat) : Function.Injective (crcShifts n) := by
  rw [funext (crcShifts_eq_iterate n)]
  exact crcShift_injective.iterate n

/-- The update is injective in the register. -/
theorem crc16Update_left_injective (b : Byte) : Function.Injective fun c => crc16Update c b := fun _ _ h =>
  BitVec.xor_left_inj _ |>.mp (crcShifts_injective 8 h)

/-- The update is injective in the byte. -/
theorem crc16Update_right_injective (c : Crc) : Function.Injective (crc16Update c) := fun x y h => by
  have hentry : x.setWidth 16 <<< 8 = (y.setWidth 16 <<< 8 : Crc) :=
    BitVec.xor_right_inj _ |>.mp (crcShifts_injective 8 h)
  rw [← append_zero_byte_eq_shiftLeft, ← append_zero_byte_eq_shiftLeft] at hentry
  exact (BitVec.append_left_inj _).mp hentry

/-- A rest folded in keeps two registers apart. -/
theorem foldl_crc16Update_injective (bytes : List Byte) : Function.Injective fun c => bytes.foldl crc16Update c := by
  induction bytes with
  | nil => exact Function.injective_id
  | cons b rest ih => exact ih.comp (crc16Update_left_injective b)

/-! ### A CRC and its own bytes -/

/-- Eight shifts move a byte from the low half to the high half: bit 15 stays clear on the way. -/
theorem crcShifts_low_byte : ∀ b : Byte, crcShifts 8 (b.setWidth 16) = b.setWidth 16 <<< 8 := by decide

/-- The high byte taken out of a register leaves the low one. -/
theorem xor_high_byte (c : Crc) :
    c ^^^ ((c.extractLsb' 8 8).setWidth 16 <<< 8) = (c.extractLsb' 0 8).setWidth 16 :=
  calc c ^^^ ((c.extractLsb' 8 8).setWidth 16 <<< 8)
      = (c.extractLsb' 8 8 ++ c.extractLsb' 0 8) ^^^ (c.extractLsb' 8 8 ++ 0x00#8) := by
        rw [append_zero_byte_eq_shiftLeft, BitVec.extractLsb'_append_extractLsb' (w := 8) (len := 8) (x := c)]
    _ = 0#8 ++ c.extractLsb' 0 8 := by rw [BitVec.xor_append, BitVec.xor_self, BitVec.xor_zero]
    _ = (c.extractLsb' 0 8).setWidth 16 := by
        simpa using BitVec.setWidth_append_eq_shiftLeft_setWidth_or (w'' := 16) (b := 0#8) (b' := c.extractLsb' 0 8)

/-- Folding a register's own bytes in, high byte first, clears it. -/
theorem crc16Update_own_bytes (c : Crc) :
    crc16Update (crc16Update c (c.extractLsb' 8 8)) (c.extractLsb' 0 8) = 0#16 := by
  rw [crc16Update, crc16Update, xor_high_byte, crcShifts_low_byte, BitVec.xor_self]
  decide

end Sys2Proof.Machine

namespace Sys2Proof.Proofs

open Sys2Proof Sys2Proof.Machine

/-- Settles O54: each shift and the byte's entry are linear. -/
theorem crcUpdateIsLinear : Obligations.CrcUpdateIsLinear := crc16Update_xor

/-- Settles O55: the fold goes on from the payload's CRC with that CRC's own bytes. -/
theorem payloadWithItsCrcFoldsToZero : Obligations.PayloadWithItsCrcFoldsToZero := by
  intro p
  rw [crc16, List.foldl_append]
  exact crc16Update_own_bytes (crc16 p)

/-- Settles O56: the byte keeps the registers apart, and so does every byte after it. -/
theorem singleByteChangeChangesTheCrc : Obligations.SingleByteChangeChangesTheCrc := by
  intro before after b c hne h
  rw [crc16, crc16, List.foldl_append, List.foldl_append] at h
  exact hne (crc16Update_right_injective _ (foldl_crc16Update_injective after h))

end Sys2Proof.Proofs
end

section
/-! Runs over a frame (30_encoding.md R73): the bytes one by one, to the packet that waits or to the NACK, and the stalls
that end a Session (42_tick.md R147, R150). -/

namespace Sys2Proof.Safety

open Sys2Proof Sys2Proof.Machine Sys2Proof.Proofs

/-! ### Runs with their emissions -/

/-- The trace runs through from `s` to `t` and hands `out` to the output sink. -/
def Runs (trace : List Input) (s : State) (out : List Byte) (t : State) : Prop :=
  runInputs trace s = .next t ∧ emittedBy trace s = out

theorem Runs.nil (s : State) : Runs [] s [] s := ⟨rfl, rfl⟩

theorem Runs.append {first second : List Input} {s t u : State} {out out' : List Byte} (h : Runs first s out t)
    (h' : Runs second t out' u) : Runs (first ++ second) s (out ++ out') u := by
  obtain ⟨hrun, hout⟩ := h
  obtain ⟨hrun', hout'⟩ := h'
  exact ⟨(runInputs_append hrun second).trans hrun', by rw [emittedBy_append hrun, hout, hout']⟩

/-- One operation hands over its own output list. -/
theorem Runs.single {i : Input} {s t : State} (h : step (s.present i) = .next t) (hop : i.isOperation = true) :
    Runs [i] s t.tx t :=
  ⟨runInputs_cons_next h [], by rw [emittedBy_cons h, hop, if_pos rfl, emittedBy_nil, List.append_nil]⟩

theorem Runs.feed {b : Byte} {s t : State} (h : exec (.feed b) s = .next t) : Runs [feedInput b] s t.tx t :=
  .single ((step_present_feedInput s b).trans h) rfl

theorem Runs.tick {now : Time} {s t : State} (h : exec (.tick now) s = .next t) : Runs [tickInput now] s t.tx t :=
  .single ((step_present_tickInput s now).trans h) rfl

theorem Runs.extract {s t : State} (h : exec .extract s = .next t) : Runs [extractInput] s t.tx t :=
  .single ((step_present_extractInput s).trans h) rfl

/-- Bytes fed one after another leave the number expected, the configuration and the destination (10_state.md R45). -/
theorem Runs.feeds_frame {bs out : List Byte} {s t : State} (h : Runs (bs.map feedInput) s out t) :
    t.expectedBlock = s.expectedBlock ∧ t.cfg = s.cfg ∧ t.destCapacity = s.destCapacity := by
  obtain ⟨hrun, -⟩ := h
  induction bs generalizing s with
  | nil => cases hrun; exact ⟨rfl, rfl, rfl⟩
  | cons b rest ih =>
    cases hb : exec (.feed b) s with
    | next u =>
      rw [List.map_cons, runInputs_cons_next ((step_present_feedInput s b).trans hb)] at hrun
      obtain ⟨hblock, hcfg, hdest⟩ := ih hrun
      obtain ⟨v, hv, rfl⟩ := State.feedByte_next hb
      obtain ⟨hblock', -, -, hcfg', -, hdest'⟩ := hv.frame
      exact ⟨hblock.trans hblock', hcfg.trans hcfg', hdest.trans hdest'⟩
    | fault f => simp [runInputs, hb] at hrun
    | refused r => simp [runInputs, hb] at hrun

/-! ### The bytes of a frame -/

/-- The legal lengths of a payload (30_encoding.md R73). -/
def LegalLength (p : List Byte) : Prop := p.length = 128 ∨ p.length = 1024

/-- The header marker of a payload opens a packet of its length (41_feed_byte.md R111). -/
theorem runs_header {s : State} {p : List Byte} (hs : s.state = .awaitHandshakeOrHeader) (hp : LegalLength p) :
    ∃ t, Runs ([if p.length = 128 then hdrStd else hdrExt].map feedInput) s [] t ∧ t.state = .expectBlockNum ∧
      t.packetSize = BitVec.ofNat 11 p.length := by
  obtain ⟨hstd, -, hext, -⟩ := feedHeaderMarkerStartsAPacket s hs
  rcases hp with hl | hl <;> rw [hl]
  · exact ⟨_, .feed hstd, rfl, rfl⟩
  · exact ⟨_, .feed hext, rfl, rfl⟩

/-- The next number is accepted as new, and the number of the last block as a duplicate (41_feed_byte.md R114, R115). -/
theorem runs_number {s : State} (hs : s.state = .expectBlockNum) (d : Bool) :
    ∃ t, Runs ([acceptedOf s.expectedBlock d].map feedInput) s [] t ∧ t.state = .expectBlockNumComplement ∧
      t.isDuplicateBlock = d ∧ t.packetSize = s.packetSize := by
  cases d with
  | false => exact ⟨_, .feed (feedNextBlockNumberIsAccepted s _ hs rfl).1, rfl, rfl, rfl⟩
  | true =>
    have hne : s.expectedBlock ≠ s.expectedBlock + 1#8 := by bv_omega
    exact ⟨_, .feed (feedDuplicateBlockNumberIsAccepted s _ hs hne rfl).1, rfl, rfl, rfl⟩

/-- The complement of the number accepted opens the payload (41_feed_byte.md R118). -/
theorem runs_complement {s : State} (hs : s.state = .expectBlockNumComplement) :
    ∃ t, Runs ([0xFF#8 - acceptedOf s.expectedBlock s.isDuplicateBlock].map feedInput) s [] t ∧
      t.state = .receivingData ∧ t.fillPosition = 0#11 ∧ t.isDuplicateBlock = s.isDuplicateBlock ∧
      t.packetSize = s.packetSize :=
  ⟨_, .feed (feedComplementOpensThePayload s _ hs rfl).1, rfl, rfl, rfl, rfl⟩

/-- The state after a payload byte was stored: what the payload changes of `s` (41_feed_byte.md R121). -/
def afterPayloadByte (s : State) (next : FsmState) (m : Memory) (fill : Len) : State :=
  ports { s with state := next, packetBuffer := m, fillPosition := fill, errorCount := 0#8,
                 lastActivityTime := s.currentTime } [] (some (.feed false)) []

/-- The rest of a payload, byte by byte: each lands at its own index, the bytes before stay, and the last one moves on
to the CRC (41_feed_byte.md R121). -/
theorem runs_payload {bs : List Byte} {s : State} (hs : s.state = .receivingData) (hbs : bs ≠ [])
    (hfit : s.fillPosition.toNat + bs.length = s.packetSize.toNat) (hsize : s.packetSize.toNat ≤ 1024) :
    ∃ m : Memory, Runs (bs.map feedInput) s [] (afterPayloadByte s .expectCrcHigh m s.packetSize) ∧
      (∀ k (h : k < bs.length), m.read (s.fillPosition.toNat + k) = .ok bs[k]) ∧
      ∀ a, a < s.fillPosition.toNat → m.read a = s.packetBuffer.read a := by
  induction bs generalizing s with
  | nil => exact absurd rfl hbs
  | cons b rest ih =>
    rw [List.length_cons] at hfit
    have hnext : (s.fillPosition + 1#11).toNat = s.fillPosition.toNat + 1 := by bv_omega
    obtain ⟨m, ⟨hstep, -⟩, hsame, hother⟩ := feedStoresAPayloadByte s b hs (by omega)
    have hrun := Runs.feed hstep
    by_cases hrest : rest = []
    · subst hrest
      have hlast : s.fillPosition + 1#11 = s.packetSize := BitVec.eq_of_toNat_eq (hnext.trans hfit)
      rw [if_pos hlast, hlast] at hrun
      refine ⟨m, hrun, fun k hk => ?_, fun a ha => hother a (by omega)⟩
      obtain rfl : k = 0 := by simpa using hk
      exact hsame
    · have hmore : s.fillPosition + 1#11 ≠ s.packetSize := by
        have := List.length_pos_of_ne_nil hrest
        bv_omega
      rw [if_neg hmore] at hrun
      obtain ⟨m', hrun', hread, hbelow⟩ := ih (s := afterPayloadByte s .receivingData m (s.fillPosition + 1#11)) rfl hrest
        (show (s.fillPosition + 1#11).toNat + _ = s.packetSize.toNat by omega) hsize
      change ∀ k (h : k < rest.length), m'.read ((s.fillPosition + 1#11).toNat + k) = .ok rest[k] at hread
      change ∀ a, a < (s.fillPosition + 1#11).toNat → m'.read a = m.read a at hbelow
      rw [hnext] at hread hbelow
      refine ⟨m', hrun.append hrun', fun k hk => ?_, fun a ha => (hbelow a (by omega)).trans (hother a (by omega))⟩
      cases k with
      | zero => exact (hbelow _ (by omega)).trans hsame
      | succ k =>
        have := hread k (Nat.lt_of_succ_lt_succ hk)
        rwa [Nat.add_assoc, Nat.add_comm 1 k] at this

/-- A whole payload from the index 0 is in the buffer once its last byte was taken. -/
theorem runs_wholePayload {p : List Byte} {s : State} (hs : s.state = .receivingData) (hp : LegalLength p)
    (hfill : s.fillPosition = 0#11) (hsize : s.packetSize = BitVec.ofNat 11 p.length) :
    ∃ t, Runs (p.map feedInput) s [] t ∧ t.state = .expectCrcHigh ∧ HoldsPayload t p ∧ t.errorCount = 0#8 ∧
      t.isDuplicateBlock = s.isDuplicateBlock := by
  have hlen : s.packetSize.toNat = p.length := by rw [hsize]; rcases hp with hl | hl <;> simp [hl]
  have hle : p.length ≤ 1024 := by rcases hp with hl | hl <;> omega
  have hne : p ≠ [] := by rintro rfl; rcases hp with hl | hl <;> cases hl
  obtain ⟨m, hrun, hread, -⟩ := runs_payload hs hne (by simp [hfill, hlen]) (hlen.trans_le hle)
  refine ⟨_, hrun, rfl, ⟨hlen.symm, fun k hk => ?_⟩, rfl, rfl⟩
  show m.read k = .ok p[k]
  simpa [hfill] using hread k hk

/-- The bytes of a frame before its low CRC byte. -/
def frameHead (w : Byte) (p : List Byte) (c : Crc) : List Byte :=
  [if p.length = 128 then hdrStd else hdrExt] ++ [w] ++ [0xFF#8 - w] ++ p ++ [c.extractLsb' 8 8]

theorem frameInputs_eq_head_low (w : Byte) (p : List Byte) (c : Crc) :
    frameInputs w p c = (frameHead w p c).map feedInput ++ [feedInput (c.extractLsb' 0 8)] := by
  simp [frameInputs, frameBytes, frameHead]

/-- A frame whose number is the next one, or a duplicate's, is taken from the header wait up to its high CRC byte; nothing
is emitted, the payload is in the buffer and the errors are forgiven. -/
theorem runs_frameHead {s : State} {p : List Byte} (hs : s.state = .awaitHandshakeOrHeader) (hp : LegalLength p)
    (d : Bool) (c : Crc) :
    ∃ t, Runs ((frameHead (acceptedOf s.expectedBlock d) p c).map feedInput) s [] t ∧ t.state = .expectCrcLow ∧
      HoldsPayload t p ∧ t.receivedCrc = c.extractLsb' 8 8 ++ 0x00#8 ∧ t.isDuplicateBlock = d ∧ t.errorCount = 0#8 := by
  obtain ⟨t₁, hr₁, hs₁, hsize₁⟩ := runs_header hs hp
  obtain ⟨t₂, hr₂, hs₂, hd₂, hsize₂⟩ := runs_number hs₁ d
  obtain ⟨t₃, hr₃, hs₃, hfill₃, hd₃, hsize₃⟩ := runs_complement hs₂
  obtain ⟨t₄, hr₄, hs₄, hholds₄, herr₄, hd₄⟩ := runs_wholePayload hs₃ hp hfill₃ (hsize₃.trans (hsize₂.trans hsize₁))
  have hr₅ : Runs ([c.extractLsb' 8 8].map feedInput) t₄ [] _ := .feed (feedHighCrcByteIsLatched t₄ (c.extractLsb' 8 8) hs₄).1
  obtain ⟨hblock₁, -⟩ := hr₁.feeds_frame
  obtain ⟨hblock₂, -⟩ := hr₂.feeds_frame
  rw [hblock₁] at hr₂
  rw [hd₂, hblock₂, hblock₁] at hr₃
  have hrun := (((hr₁.append hr₂).append hr₃).append hr₄).append hr₅
  simp only [← List.map_append] at hrun
  exact ⟨_, hrun, rfl, hholds₄, rfl, hd₄.trans (hd₃.trans hd₂), herr₄⟩

/-! ### A whole frame: match and mismatch -/

/-- The CRC field put together from its two bytes. -/
theorem high_or_low_byte (c : Crc) :
    (c.extractLsb' 8 8 ++ 0x00#8) ||| (c.extractLsb' 0 8).setWidth 16 = c := by
  rw [append_zero_byte_eq_shiftLeft]
  have h := BitVec.setWidth_append_eq_shiftLeft_setWidth_or (w'' := 16) (b := c.extractLsb' 8 8) (b' := c.extractLsb' 0 8)
  rw [BitVec.extractLsb'_append_extractLsb' (w := 8) (len := 8) (x := c)] at h
  exact h.symm.trans (BitVec.setWidth_eq c)

/-- A packet is taken from the header wait to PACKET_READY, and nothing is emitted (41_feed_byte.md R124). -/
theorem runs_packet {s : State} {p : List Byte} (hs : s.state = .awaitHandshakeOrHeader) (hp : LegalLength p) (d : Bool) :
    ∃ t, Runs (packetInputs (acceptedOf s.expectedBlock d) p) s [] t ∧ t.state = .packetReady ∧ HoldsPayload t p ∧
      t.isDuplicateBlock = d ∧ t.expectedBlock = s.expectedBlock ∧ t.destCapacity = s.destCapacity := by
  obtain ⟨t, hrun, ht, hholds, hcrc, hd, -⟩ := runs_frameHead hs hp d (crc16 p)
  obtain ⟨hblock, -, hdest⟩ := hrun.feeds_frame
  have hlow : t.receivedCrc ||| ((crc16 p).extractLsb' 0 8).setWidth 16 = crc16 p := by rw [hcrc, high_or_low_byte]
  have hpacket := hrun.append (.feed (feedCrcMatchMakesThePacketReady t _ p ht hholds hlow).1)
  rw [← frameInputs_eq_head_low] at hpacket
  exact ⟨_, hpacket, rfl, hholds, hd, hblock, hdest⟩

/-- Bytes fed while a packet waits change no register and emit nothing (41_feed_byte.md R125). -/
theorem runs_ignored {s : State} (hs : s.state = .packetReady) (bs : List Byte) :
    ∃ tx r ev, Runs (bs.map feedInput) s [] (ports s tx r ev) := by
  induction bs generalizing s with
  | nil => exact ⟨s.tx, s.response, s.events, .nil s⟩
  | cons b rest ih =>
    have hfirst := Runs.feed (feedIsIgnoredWhileAPacketWaits s b hs).1
    obtain ⟨tx, r, ev, hrest⟩ := ih (s := ports s [] (some (.feed true)) []) hs
    exact ⟨tx, r, ev, hfirst.append hrest⟩

/-- A waiting packet that is new is delivered under the number expected, with one ACK (43_extract_and_queries.md R160). -/
theorem runs_delivery {s : State} {p : List Byte} (hs : s.state = .packetReady) (hd : s.isDuplicateBlock = false)
    (hp : HoldsPayload s p) (hdest : p.length ≤ s.destCapacity) :
    ∃ t, Runs [extractInput] s [ackByte] t ∧ t.state = .awaitHandshakeOrHeader ∧
      t.expectedBlock = s.expectedBlock + 1#8 ∧
      t.response = some (.delivered s.expectedBlock (BitVec.ofNat 11 p.length) p) := by
  obtain ⟨hlen, -⟩ := id hp
  have hsize : s.packetSize = BitVec.ofNat 11 p.length := by rw [hlen, BitVec.ofNat_toNat, BitVec.setWidth_eq]
  rw [← hsize]
  exact ⟨_, .extract (extractDeliversANewBlock s p hs hd (hlen.ge.trans hdest) hp), rfl, rfl, rfl⟩

/-- A frame with a wrong CRC field is answered with one NACK byte, and the Session waits for a header
(41_feed_byte.md R123). -/
theorem runs_badFrame {s : State} {p : List Byte} {c : Crc} (hs : s.state = .awaitHandshakeOrHeader)
    (hp : LegalLength p) (d : Bool) (hc : c ≠ crc16 p) :
    ∃ t, Runs (frameInputs (acceptedOf s.expectedBlock d) p c) s [s.cfg.nackByte] t ∧
      t.state = .awaitHandshakeOrHeader ∧ t.expectedBlock = s.expectedBlock ∧ t.errorCount = 1#8 ∧
      t.response = some (.feed false) := by
  obtain ⟨t, hrun, ht, hholds, hcrc, -, herr⟩ := runs_frameHead hs hp d c
  obtain ⟨hblock, hcfg, -⟩ := hrun.feeds_frame
  have hlow : t.receivedCrc ||| (c.extractLsb' 0 8).setWidth 16 ≠ crc16 p := by rwa [hcrc, high_or_low_byte]
  have hframe := hrun.append (.feed (feedCrcMismatchIsNacked t _ p ht hholds hlow).1)
  rw [← frameInputs_eq_head_low, herr] at hframe
  rw [← hcfg]
  exact ⟨_, hframe, rfl, hblock, rfl, rfl⟩

/-! ### Stalls -/

/-- A stall whose count stays within `MAX_ERRORS` emits the control byte of the phase, which stays, and restarts the
timer (42_tick.md R146, R148). -/
theorem runs_stall {s : State} {now : Time} (ha : s.active = true) (hv : s.timeValid = true)
    (hq : s.interval < (now - s.lastActivityTime).toNat) (he : (s.errorCount + 1#8).toNat ≤ s.cfg.maxErrors.val) :
    ∃ t, Runs [tickInput now] s [s.stallByte] t ∧ t.active = true ∧ t.timeValid = true ∧
      t.errorCount = s.errorCount + 1#8 ∧ t.lastActivityTime = now ∧ t.cfg = s.cfg ∧ t.interval = s.interval ∧
      t.stallByte = s.stallByte := by
  have hrun := Runs.tick (exec_tick_of_arm (.resends ha hv ((s.stalled_iff now).mpr hq)
    (s.countError.errorsExceeded_eq_false_iff.mpr he)))
  rw [State.tickResends_eq] at hrun
  exact ⟨_, hrun, ha, hv, rfl, rfl, rfl, rfl, rfl⟩

/-- A stall whose count passes `MAX_ERRORS` ends the Session and emits nothing (42_tick.md R147). -/
theorem runs_lastStall {s : State} {now : Time} (ha : s.active = true) (hv : s.timeValid = true)
    (hq : s.interval < (now - s.lastActivityTime).toNat) (he : s.cfg.maxErrors.val < (s.errorCount + 1#8).toNat) :
    ∃ t, Runs [tickInput now] s [] t ∧ t.state = .failure ∧ t.errorCount = s.errorCount + 1#8 := by
  have hrun := Runs.tick (exec_tick_of_arm (.stallFails ha hv ((s.stalled_iff now).mpr hq)
    (s.countError_errorsExceeded_iff.mpr he)))
  rw [State.tickStallFails_eq] at hrun
  exact ⟨_, hrun, rfl, rfl⟩

/-- Stalls in a row, each more than the interval after the one before, count up to `MAX_ERRORS + 1`, and all but the
last one resend the control byte of the phase (42_tick.md R147, R148, R150). -/
theorem runs_stalls {times : List Time} {s : State} (ha : s.active = true) (hv : s.timeValid = true)
    (hne : times ≠ []) (hcount : s.errorCount.toNat + times.length = s.cfg.maxErrors.val + 1)
    (hchain : List.IsChain (fun a b : Time => s.interval < (b - a).toNat) (s.lastActivityTime :: times)) :
    ∃ t, Runs (times.map tickInput) s (List.replicate (times.length - 1) s.stallByte) t ∧ t.state = .failure ∧
      t.errorCount.toNat = s.cfg.maxErrors.val + 1 := by
  induction times generalizing s with
  | nil => exact absurd rfl hne
  | cons now rest ih =>
    obtain ⟨hstall, hrest⟩ := List.isChain_cons_cons.mp hchain
    rw [List.length_cons] at hcount
    have hmax : s.cfg.maxErrors.val < 254 := s.cfg.maxErrors.isLt
    have hadd : (s.errorCount + 1#8).toNat = s.errorCount.toNat + 1 := by bv_omega
    by_cases hlast : rest = []
    · subst hlast
      rw [List.length_nil] at hcount
      obtain ⟨t, hrun, ht, herr⟩ := runs_lastStall ha hv hstall (by omega)
      exact ⟨t, hrun, ht, by rw [herr, hadd, hcount]⟩
    · have hpos := List.length_pos_of_ne_nil hlast
      obtain ⟨u, hrun, hua, huv, huerr, hulast, hucfg, huint, hubyte⟩ := runs_stall ha hv hstall (by omega)
      rw [← hulast, ← huint] at hrest
      obtain ⟨t, hrun', ht, herr⟩ := ih hua huv hlast (by rw [huerr, hadd, hucfg]; omega) hrest
      have htotal : (now :: rest).length - 1 = rest.length - 1 + 1 := by rw [List.length_cons]; omega
      rw [htotal, List.replicate_succ]
      exact ⟨t, hrun.append (hubyte ▸ hrun'), ht, hucfg ▸ herr⟩

end Sys2Proof.Safety

namespace Sys2Proof.Proofs

open Sys2Proof Sys2Proof.Machine Sys2Proof.Safety

/-- Settles O57: the packet with the next number, then the delivery. -/
theorem wellFormedPacketIsDelivered : Obligations.WellFormedPacketIsDelivered := by
  intro s p hs hp hdest trace
  obtain ⟨t, hpacket, ht, hholds, hd, hblock, hcap⟩ := runs_packet hs hp false
  obtain ⟨u, hextract, hu, hadvanced, hresponse⟩ := runs_delivery ht hd hholds (hcap ▸ hdest)
  rw [hblock] at hadvanced hresponse
  obtain ⟨hrun, hout⟩ := hpacket.append hextract
  exact ⟨hout, u, hrun, hu, hadvanced, hresponse⟩

/-- Settles O58: the copy before the EXTRACT is ignored; the copy after it is the packet of the last block's number, a
duplicate, which EXTRACT discards. -/
theorem repeatedPacketIsDeliveredOnce : Obligations.RepeatedPacketIsDeliveredOnce := by
  intro s p hs hp hdest packet
  obtain ⟨t, hpacket, ht, hholds, hd, hblock, hcap⟩ := runs_packet hs hp false
  obtain ⟨tx, r, ev, hignored⟩ := runs_ignored ht (frameBytes (s.expectedBlock + 1#8) p (crc16 p))
  obtain ⟨u, hextract, hu, hadvanced, hresponse⟩ :=
    runs_delivery (s := ports t tx r ev) ht hd hholds (hcap ▸ hdest)
  replace hadvanced : u.expectedBlock = s.expectedBlock + 1#8 := hblock ▸ hadvanced
  replace hresponse : u.response = some (.delivered s.expectedBlock (BitVec.ofNat 11 p.length) p) := hblock ▸ hresponse
  obtain ⟨v, hagain, hv, -, hdup, hblock', -⟩ := runs_packet hu hp true
  have hdiscard := Runs.extract (extractDiscardsADuplicate v hv hdup)
  obtain ⟨hrun, hout⟩ := (hpacket.append hignored).append hextract
  obtain ⟨hrun', hout'⟩ := hagain.append hdiscard
  have hnumber : acceptedOf u.expectedBlock true = s.expectedBlock + 1#8 := hadvanced
  rw [hnumber] at hrun' hout'
  exact ⟨hout, u, hrun, hresponse, hadvanced, hout', _, hrun', rfl, hblock'.trans hadvanced⟩

/-- Settles O59: a frame with the next number and a wrong field. -/
theorem corruptedPacketIsNacked : Obligations.CorruptedPacketIsNacked := by
  intro s p c hs hp hc
  obtain ⟨t, ⟨hrun, hout⟩, ht, hblock, herr, hresponse⟩ := runs_badFrame hs hp false hc
  exact ⟨hout, t, hrun, ht, hblock, herr, hresponse⟩

/-- Settles O60: from no errors, `MAX_ERRORS + 1` stalls. -/
theorem stallsEndInFailure : Obligations.StallsEndInFailure := by
  intro s times ha hv he hlen hchain
  have hne : times ≠ [] := by rintro rfl; cases hlen
  have hcount : s.errorCount.toNat + times.length = s.cfg.maxErrors.val + 1 := by rw [he, hlen]; exact Nat.zero_add _
  obtain ⟨t, ⟨hrun, hout⟩, ht, herr⟩ := runs_stalls ha hv hne hcount hchain
  rw [hlen, Nat.add_sub_cancel] at hout
  exact ⟨hout, t, hrun, ht, herr⟩

end Sys2Proof.Proofs
end
